-- ==== Sys2Proof/Word.lean ====
section
/-! DEFINITION. The words of the block and its three code registers' names: what 10_state.md R20 to R27,
30_encoding.md R72 and R73 call bits are bit vectors, what they call names are inductive types. -/

namespace Sys2Proof

/-- One byte of the stream (00_scope.md R7). -/
abbrev Byte := BitVec 8

/-- The 12-bit input event word `kind[11:8] ‖ data[7:0]` (30_encoding.md R73). -/
abbrev EventWord := BitVec 12

/-- A 2-bit luminance sample, 0 to 3 (30_encoding.md R72). -/
abbrev Sample := BitVec 2

/-- The 11-bit status word (10_state.md R36). -/
abbrev StatusWord := BitVec 11

/-- The lifecycle state `st` (10_state.md R21). Its codes 6 and 7 are unused and have no name. -/
inductive Lifecycle where
  | idle
  | syncing
  | accumulating
  | decoding
  | presenting
  | shutdown
  deriving DecidableEq, Repr

/-- Why the block shut down, `exit` (10_state.md R26). -/
inductive ExitCode where
  | none
  | stopped
  | sourceClosed
  | sourceUnavailable
  deriving DecidableEq, Repr

/-- The sticky fault register `fault` (10_state.md R27, causes in 60_exceptions.md R227). -/
inductive FaultCode where
  | none
  | illegalEvent
  | noRequest
  | overlong
  | badStart
  | badOpenFail
  | badAck
  | unwritten
  deriving DecidableEq, Repr

/-- The grayscale-as-RGB triple of 43_unpacker.md R166. -/
structure Rgb where
  red : Byte
  green : Byte
  blue : Byte
  deriving DecidableEq, Repr

end Sys2Proof
end

