-- ==== Sys2Proof/Config.lean ====
section
/-! DEFINITION. The configuration record of 00_scope.md R4, which of its values are legal (R5), the values this
hardware takes, and the one value the spec leaves open (`EXIT_UNAVAILABLE`). -/

namespace Sys2Proof

/-- When a stop request is acted on (00_scope.md R4, 44_control.md R194; decision D9). -/
inductive StopSampling where
  | loopTop
  | anyStep
  deriving DecidableEq, Repr

/-- The configuration `cfg` (00_scope.md R4): raster width `W`, height `H`, sentinel `S`, `STOP_SAMPLING`.
`S` is a byte by its type, and `STOP_SAMPLING` one of its two values, as R5 asks. -/
structure Config where
  W : Nat
  H : Nat
  S : Byte
  stopSampling : StopSampling
  deriving DecidableEq, Repr

/-- Samples per frame, `W*H` (R4). -/
def Config.N (c : Config) : Nat := c.W * c.H

/-- Payload bytes per frame, `W*H/4` (R4). -/
def Config.P (c : Config) : Nat := c.W * c.H / 4

/-- The luminance multiplier, fixed and not configurable (R4, 43_unpacker.md R165). -/
def Config.lumMul : Nat := 85

/-- `CNT_W`, the smallest width `w` with `2^w > P` (R4, decision D25); 11 for `P = 1024`. -/
def Config.cntW (c : Config) : Nat := if c.P = 0 then 0 else Nat.log2 c.P + 1

/-- A legal configuration: `W ≥ 1`, `H ≥ 1` and `(W*H) mod 4 = 0` (R5). -/
def Config.legal (c : Config) : Bool :=
  decide (1 ≤ c.W) && decide (1 ≤ c.H) && decide (c.W * c.H % 4 = 0)

/-- The values this hardware takes: 64, 64, 0x26 and `LOOP_TOP` (R4). -/
def Config.thisHardware : Config :=
  { W := 64, H := 64, S := 0x26#8, stopSampling := .loopTop }

/-- FREE VALUE (log entry 12). 60_exceptions.md R234 and decision D22 leave `EXIT_UNAVAILABLE` open: any non-zero
value. This natural is unconstrained, and `EXIT_UNAVAILABLE` is one more than it. -/
opaque Config.exitUnavailableLessOne : Nat

/-- `EXIT_UNAVAILABLE` (R4, R234): non-zero, and nothing else is known of it. -/
def Config.exitUnavailable : Nat := Config.exitUnavailableLessOne + 1

end Sys2Proof
end

