-- ==== Sys2Proof/Syntax.lean ====
section
/-! DEFINITION. The block's operations: one constructor per row of spec/opcode_table.json, in the table's order. -/

namespace Sys2Proof

/-- The operations of spec/opcode_table.json. The first nineteen are selected by an input event word in a given
state (30_encoding.md R77); ISSUE, DECODE and LOOP_TOP are internal; FIELD, UNPACK, LUM and RGB are the pure functions
of 43_unpacker.md. -/
inductive Instr where
  /-- SYNC_DISCARD (R120): a data byte `d ≠ S` while scanning. -/
  | syncDiscard (d : Byte)
  /-- SYNC_HIT (R121): the data byte `S` while scanning; its byte is the configured sentinel, so it has no operand. -/
  | syncHit
  /-- ACC_STORE (R140): a data byte while accumulating. -/
  | accStore (d : Byte)
  /-- RD_DATA_CHECK (R102): the checks and the count common to every data byte. -/
  | rdDataCheck (d : Byte)
  /-- SYNC_END (R122): the end of a response while scanning. -/
  | syncEnd
  /-- ACC_END (R141): the end of a response while accumulating. -/
  | accEnd
  /-- RD_END_CHECK (R103): the check and the clearing common to every end of a response. -/
  | rdEndCheck
  /-- SRC_CLOSED (R104): the source has closed. -/
  | srcClosed
  /-- START (R192). -/
  | start
  /-- STOP (R194). -/
  | stop
  /-- OPEN_FAIL (R193). -/
  | openFail
  /-- SINK_ACK (R196). -/
  | sinkAck
  /-- START_MISPLACED (R197): a start outside IDLE. -/
  | startMisplaced
  /-- OPEN_FAIL_MISPLACED (R197): an open failure outside IDLE. -/
  | openFailMisplaced
  /-- SINK_ACK_MISPLACED (R197): an acknowledgement outside PRESENTING. -/
  | sinkAckMisplaced
  /-- ILLEGAL_KIND_7 (R78): a word of the reserved kind 0x7. -/
  | illegalKind7 (data : Byte)
  /-- ILLEGAL_KIND_8_F (R78): a word of a reserved kind 0x8..0xF, `low` its kind's three low bits. -/
  | illegalKind8F (low : BitVec 3) (data : Byte)
  /-- ILLEGAL_DATA (R78): a kind 0x1..0x6 with data that is not zero. -/
  | illegalData (kind : BitVec 4) (data : Byte)
  /-- SHUTDOWN_IGNORE (R226, R229): any word in SHUTDOWN, or while the block is faulted. -/
  | shutdownIgnore (kind : BitVec 4) (data : Byte)
  /-- ISSUE (R100): issue a read request. -/
  | issue
  /-- DECODE (R162): unpack the payload into the raster. -/
  | decode
  /-- LOOP_TOP (R195): the top of one iteration of the loop. -/
  | loopTop
  /-- FIELD (R160): field `k` of the byte `b`. -/
  | field (b : Byte) (k : BitVec 2)
  /-- UNPACK (R161): the four samples of the byte `b`. -/
  | unpack (b : Byte)
  /-- LUM (R165): the luminance of the sample `x`. -/
  | lum (x : Sample)
  /-- RGB (R166): the grey triple of the sample `x`. -/
  | rgb (x : Sample)
  deriving DecidableEq, Repr

end Sys2Proof
end

