-- ==== Sys2Proof/WellFormed.lean ====
section
/-! DEFINITION. Which operations are well formed (their operands are ones the spec gives the row), and which cell of
30_encoding.md R77 each event operation stands in. -/

namespace Sys2Proof

/-- The operand checks of the table's rows, for the sentinel `S`: SYNC_DISCARD needs `d ≠ S` (R120), ILLEGAL_DATA a
kind 0x1..0x6 and data that is not zero (R78). Every other operand is right by its type. -/
def wellFormed (S : Byte) : Instr → Bool
  | .syncDiscard d => decide (d ≠ S)
  | .illegalData kind data =>
    decide (1 ≤ kind.toNat) && decide (kind.toNat ≤ 6) && decide (data ≠ 0#8)
  | .syncHit | .accStore _ | .rdDataCheck _ | .syncEnd | .accEnd | .rdEndCheck | .srcClosed => true
  | .start | .stop | .openFail | .sinkAck | .startMisplaced | .openFailMisplaced | .sinkAckMisplaced => true
  | .illegalKind7 _ | .illegalKind8F _ _ | .shutdownIgnore _ _ => true
  | .issue | .decode | .loopTop => true
  | .field _ _ | .unpack _ | .lum _ | .rgb _ => true

/-- Whether the operation is one an input event word can select: the rows of format EVENT12. -/
def isEventOperation : Instr → Bool
  | .syncDiscard _ | .syncHit | .accStore _ | .rdDataCheck _ | .syncEnd | .accEnd | .rdEndCheck | .srcClosed => true
  | .start | .stop | .openFail | .sinkAck | .startMisplaced | .openFailMisplaced | .sinkAckMisplaced => true
  | .illegalKind7 _ | .illegalKind8F _ _ | .illegalData _ _ | .shutdownIgnore _ _ => true
  | .issue | .decode | .loopTop => false
  | .field _ _ | .unpack _ | .lum _ | .rgb _ => false

/-- The cells of the table of 30_encoding.md R77: whether that table selects the operation in the state `st` of a
block that is halted (`fault ≠ NONE`, 60_exceptions.md R229) or not. RD_DATA_CHECK and RD_END_CHECK stand for the
cells in which only the check of R102 or R103 applies. The unreachable column DECODING follows the rules' own words
(log entry 7). -/
def selectedIn (st : Lifecycle) (halted : Bool) : Instr → Bool
  | .syncDiscard _ | .syncHit | .syncEnd => !halted && decide (st = .syncing)
  | .accStore _ | .accEnd => !halted && decide (st = .accumulating)
  | .rdDataCheck _ | .rdEndCheck =>
    !halted && decide (st = .idle ∨ st = .presenting ∨ st = .decoding)
  | .srcClosed | .stop => !halted && decide (st ≠ .shutdown)
  | .start | .openFail => !halted && decide (st = .idle)
  | .sinkAck => !halted && decide (st = .presenting)
  | .startMisplaced | .openFailMisplaced => !halted && decide (st ≠ .idle ∧ st ≠ .shutdown)
  | .sinkAckMisplaced => !halted && decide (st ≠ .presenting ∧ st ≠ .shutdown)
  | .illegalKind7 _ | .illegalKind8F _ _ | .illegalData _ _ => !halted && decide (st ≠ .shutdown)
  | .shutdownIgnore _ _ => halted || decide (st = .shutdown)
  | .issue | .decode | .loopTop => false
  | .field _ _ | .unpack _ | .lum _ | .rgb _ => false

end Sys2Proof
end

