-- ==== Sys2Proof/Decode.lean ====
section
/-! DEFINITION. The decoder of an event word (30_encoding.md R73 to R78), the encoder, and `decodeTableWord`. -/

namespace Sys2Proof

/-- `kind = e[11:8]` (30_encoding.md R73). -/
def eventKind (e : EventWord) : BitVec 4 := e.extractLsb' 8 4

/-- `data = e[7:0]` (30_encoding.md R73). -/
def eventData (e : EventWord) : Byte := e.extractLsb' 0 8

/-- The word `kind ‖ data` (30_encoding.md R73). -/
def eventWord (kind : BitVec 4) (data : Byte) : EventWord := kind ++ data

/-- An illegal word: a reserved kind 0x7..0xF, or a kind 0x1..0x6 with data that is not zero (R78, R190). -/
def illegalWord (e : EventWord) : Bool :=
  decide (7 ≤ (eventKind e).toNat) || (decide (eventKind e ≠ 0#4) && decide (eventData e ≠ 0#8))

/-- The row of an illegal word (R78): by its kind 0x7, by its kind 0x8..0xF, or else by its data. -/
def decodeIllegal (kind : BitVec 4) (data : Byte) : Instr :=
  if kind = 7#4 then .illegalKind7 data
  else if 8 ≤ kind.toNat then .illegalKind8F (kind.extractLsb' 0 3) data
  else .illegalData kind data

/-- The row RD_DATA of R77. -/
def decodeRdData (S : Byte) (st : Lifecycle) (d : Byte) : Instr :=
  match st with
  | .syncing => if d = S then .syncHit else .syncDiscard d
  | .accumulating => .accStore d
  | .idle | .decoding | .presenting | .shutdown => .rdDataCheck d

/-- The row RD_END of R77. -/
def decodeRdEnd (st : Lifecycle) : Instr :=
  match st with
  | .syncing => .syncEnd
  | .accumulating => .accEnd
  | .idle | .decoding | .presenting | .shutdown => .rdEndCheck

/-- The legal words of R77 in a block that is neither halted nor shut down, by kind (R74). -/
def decodeLegal (S : Byte) (st : Lifecycle) (kind : BitVec 4) (data : Byte) : Instr :=
  match kind.toNat with
  | 0 => decodeRdData S st data
  | 1 => decodeRdEnd st
  | 2 => .srcClosed
  | 3 => if st = .idle then .start else .startMisplaced
  | 4 => .stop
  | 5 => if st = .idle then .openFail else .openFailMisplaced
  | 6 => if st = .presenting then .sinkAck else .sinkAckMisplaced
  | _ => decodeIllegal kind data

/-- The operation the word `e` selects in the state `st` of a block that is halted (`fault ≠ NONE`) or not, with the
sentinel `S`: the table of 30_encoding.md R77, its checks in the order of 44_control.md R190. Total: every 12-bit word
selects a row. -/
def decodeEvent (S : Byte) (st : Lifecycle) (halted : Bool) (e : EventWord) : Instr :=
  if halted || decide (st = .shutdown) then .shutdownIgnore (eventKind e) (eventData e)
  else if illegalWord e then decodeIllegal (eventKind e) (eventData e)
  else decodeLegal S st (eventKind e) (eventData e)

/-- Why a number is refused as an event word. -/
inductive DecodeError where
  /-- It needs more than the twelve bits of an event word (R73: every event word is exactly 12 bits, R79). -/
  | notTwelveBits
  deriving DecidableEq, Repr

/-- The decoder on any number: a number beyond twelve bits is refused by name. -/
def decodeNumber (S : Byte) (st : Lifecycle) (halted : Bool) (w : Nat) : Except DecodeError Instr :=
  if w < 4096 then .ok (decodeEvent S st halted (BitVec.ofNat 12 w)) else .error .notTwelveBits

/-- What the host asks of the decoder (log entry 10): the operation the word `w` selects right after reset, in IDLE
with no fault, under this hardware's configuration. A word has no other meaning of its own: R77 decodes it from the
kind AND the state. -/
def decodeTableWord (_nbits w : Nat) : Option Instr :=
  match decodeNumber Config.thisHardware.S .idle false w with
  | .ok i => some i
  | .error _ => none

/-- The event word of an operation (30_encoding.md R74, R75, R81; spec/opcode_table.json), for the sentinel `S`.
Internal operations and pure functions have none. -/
def encode (S : Byte) : Instr → Option EventWord
  | .syncDiscard d => some (eventWord 0#4 d)
  | .syncHit => some (eventWord 0#4 S)
  | .accStore d => some (eventWord 0#4 d)
  | .rdDataCheck d => some (eventWord 0#4 d)
  | .syncEnd => some 0x100#12
  | .accEnd => some 0x100#12
  | .rdEndCheck => some 0x100#12
  | .srcClosed => some 0x200#12
  | .start => some 0x300#12
  | .stop => some 0x400#12
  | .openFail => some 0x500#12
  | .sinkAck => some 0x600#12
  | .startMisplaced => some 0x300#12
  | .openFailMisplaced => some 0x500#12
  | .sinkAckMisplaced => some 0x600#12
  | .illegalKind7 data => some (eventWord 7#4 data)
  | .illegalKind8F low data => some (eventWord (1#1 ++ low) data)
  | .illegalData kind data => some (eventWord kind data)
  | .shutdownIgnore kind data => some (eventWord kind data)
  | .issue => none
  | .decode => none
  | .loopTop => none
  | .field _ _ => none
  | .unpack _ => none
  | .lum _ => none
  | .rgb _ => none

end Sys2Proof
end

