-- ==== Sys2Proof/Machine/State.lean ====
section
/-! DEFINITION. The state of the block (10_state.md R20 to R29) with the model's own fields beside it, the reasons a
step can stop, and the state after reset (70_reset_and_hazards.md R260). -/

namespace Sys2Proof.Machine

/-- A storage array (20_memory.md R50): the written entries as (index, value) pairs, indexes strictly rising. An index
that is not listed is `unwritten` (10_state.md R28, R29): it holds no value. `Memory 8` is a list of `Host.Cell`. -/
abbrev Memory (w : Nat) := List (Nat × BitVec w)

/-- An output event of the block (30_encoding.md R76). -/
inductive Output where
  /-- `RD_REQ(n)`: `n` bytes are requested. -/
  | rdReq (n : Nat)
  /-- `FRAME(r)`: the samples of the raster, in index order. -/
  | frame (r : List Sample)
  /-- `RELEASE(x)`: the exit code. -/
  | release (x : ExitCode)
  /-- `FAULT(c)`: the fault code. -/
  | fault (c : FaultCode)
  deriving DecidableEq, Repr

/-- One input the host delivers: an event word (R73), or a reset, which is an input outside the event word (R260). -/
inductive Input where
  | event (e : EventWord)
  | reset
  deriving DecidableEq, Repr

/-- The result a pure function of the opcode table gave (log entry 5). -/
inductive FnResult where
  /-- No pure function has been run. -/
  | none
  /-- FIELD's sample (R160). -/
  | sample (x : Sample)
  /-- UNPACK's four samples, in order (R161). -/
  | samples (xs : List Sample)
  /-- LUM's 8-bit level (R165). -/
  | level (l : Byte)
  /-- RGB's triple (R166). -/
  | triple (t : Rgb)
  deriving DecidableEq, Repr

/-- The machine. `st` to `raster` are the record of 10_state.md R20, all the block's state; `cfg`, `inputs`, `outs` and
`fnOut` are the model's own (log entries 1, 3, 4 and 5). -/
structure State where
  /-- The lifecycle state (R21). -/
  st : Lifecycle
  /-- Payload bytes accumulated in the current frame (R22). -/
  cnt : Nat
  /-- Size of the outstanding read request, 0 for none (R23). -/
  reqN : Nat
  /-- Bytes received in the outstanding response (R24). -/
  rspCnt : Nat
  /-- A stop request seen and not yet acted on (R25). -/
  stopPend : Bool
  /-- Why the block shut down (R26). -/
  exit : ExitCode
  /-- The sticky host-contract fault (R27). -/
  fault : FaultCode
  /-- The payload buffer (R28). -/
  pbuf : Memory 8
  /-- The decoded raster (R29). -/
  raster : Memory 2
  /-- The configuration, fixed for the run (00_scope.md R4). -/
  cfg : Config
  /-- What the host has yet to deliver, in order (R10, R11). -/
  inputs : List Input
  /-- The output trace, in emission order (R9, R76). -/
  outs : List Output
  /-- The result of the last pure function run. -/
  fnOut : FnResult
  deriving DecidableEq, Repr

/-- The reasons a step stops with a fault: there is none. Every fault of the spec is a register value and an output,
taken by the block as a next state (60_exceptions.md R228), so no step of this machine stops with a fault; nobody
raises one. Safe (log entry 17). -/
inductive Fault where
  deriving DecidableEq, Repr

/-- The reasons an operation or a step is refused. -/
inductive Refusal where
  /-- An operation that has no meaning yet: raised by no arm of `exec` now. Safe. -/
  | notModelled (mnemonic : String)
  /-- Raised by a meaning run in a state, or on an operand, for which the spec gives its row no effect: the table of
  30_encoding.md R77 selects another row there, or the internal operation is not enabled. No step runs an operation so.
  Safe (log entry 6). -/
  | notApplicable
  /-- Raised by `step` and `boot` for a configuration 00_scope.md R5 refuses. Safe (log entry 4). -/
  | illegalConfiguration
  deriving DecidableEq, Repr

/-- The machine right after reset under the configuration `cfg` (70_reset_and_hazards.md R260); the model's own fields
are empty (log entries 1, 3, 5). -/
def State.resetWith (cfg : Config) : State :=
  { st := .idle
    cnt := 0
    reqN := 0
    rspCnt := 0
    stopPend := false
    exit := .none
    fault := .none
    pbuf := []
    raster := []
    cfg := cfg
    inputs := []
    outs := []
    fnOut := .none }

/-- The machine right after reset with this hardware's configuration (R4, R260). -/
def State.reset : State := State.resetWith Config.thisHardware

end Sys2Proof.Machine
end

