-- ==== Sys2Proof/Machine/Ops.lean ====
section
/-! DEFINITION. The named operations over the storage arrays and the registers: reading and writing an array, emitting
an output, raising a fault (60_exceptions.md R228), entering shutdown (R225), reset (70_reset_and_hazards.md R260), the
checks common to the beats of a response (40_source_port.md R102, R103) and the loop top (44_control.md R195). -/

namespace Sys2Proof.Machine

/-! ## The storage arrays -/

/-- Entry `i`, or `none` where it is `unwritten` (10_state.md R28, R29). -/
def Memory.read {w : Nat} : Memory w → Nat → Option (BitVec w)
  | [], _ => none
  | (a, v) :: m, i => if a = i then some v else Memory.read m i

/-- Entry `i` becomes `v`; the indexes stay strictly rising (20_memory.md R57). -/
def Memory.write {w : Nat} : Memory w → Nat → BitVec w → Memory w
  | [], i, v => [(i, v)]
  | (a, u) :: m, i, v =>
    if i < a then (i, v) :: (a, u) :: m
    else if i = a then (i, v) :: m
    else (a, u) :: Memory.write m i v

/-- The `n` entries from `a` on, or `none` if one of them is `unwritten`. -/
def Memory.readRange {w : Nat} (m : Memory w) : Nat → Nat → Option (List (BitVec w))
  | _, 0 => some []
  | a, n + 1 =>
    match Memory.read m a with
    | none => none
    | some v =>
      match Memory.readRange m (a + 1) n with
      | none => none
      | some vs => some (v :: vs)

/-- The array whose entries from `a` on are `vs`, all others `unwritten`. -/
def Memory.ofValues {w : Nat} : Nat → List (BitVec w) → Memory w
  | _, [] => []
  | a, v :: vs => (a, v) :: Memory.ofValues (a + 1) vs

/-- The canonical form from `lo` on: indexes at least `lo`, below `bound`, strictly rising. -/
def Memory.wfFrom {w : Nat} (bound : Nat) : Nat → Memory w → Bool
  | _, [] => true
  | lo, (a, _) :: m => decide (lo ≤ a) && decide (a < bound) && Memory.wfFrom bound (a + 1) m

/-- The canonical form of an array of `bound` entries (20_memory.md R58: indexes `0..bound-1`). Equal arrays are equal
lists. -/
def Memory.wf {w : Nat} (bound : Nat) (m : Memory w) : Bool := Memory.wfFrom bound 0 m

/-! ## Outputs, faults, shutdown, reset -/

/-- `emit O`: append to the output trace (00_scope.md R9). -/
def State.emit (s : State) (o : Output) : State := { s with outs := s.outs ++ [o] }

/-- `raise Fault(c)` (60_exceptions.md R228): the code is recorded and emitted; nothing else is written. -/
def State.raiseFault (s : State) (c : FaultCode) : State := { s with fault := c }.emit (.fault c)

/-- `enter_shutdown(x)` (60_exceptions.md R225): `stopPend`, `cnt`, `pbuf` and `raster` are left as they were. -/
def State.enterShutdown (s : State) (x : ExitCode) : State :=
  { s with st := .shutdown, exit := x, reqN := 0, rspCnt := 0 }.emit (.release x)

/-- RESET (70_reset_and_hazards.md R260): every field of the block takes its reset value, from any state, and nothing is
emitted. What is not the block's state stays (log entry 14). -/
def State.applyReset (s : State) : State :=
  { State.resetWith s.cfg with inputs := s.inputs, outs := s.outs, fnOut := s.fnOut }

/-! ## What an operation answers -/

/-- What an operation or a step answers. -/
abbrev Answer := Host.Outcome State Fault Refusal

/-- Go on with `k` from the next state `r` answers. -/
def Answer.andThen (r : Answer) (k : State → Answer) : Answer :=
  match r with
  | .next t => k t
  | .fault f => .fault f
  | .refused q => .refused q

/-- A faulted block is halted (60_exceptions.md R229). -/
def State.halted (s : State) : Bool := decide (s.fault ≠ .none)

/-- Every event is ignored: the block is halted (R229) or in the terminal state (R226). -/
def State.ignoresEvents (s : State) : Bool := s.halted || decide (s.st = .shutdown)

/-- The first two checks of a step (44_control.md R190, 60_exceptions.md R231): an event is ignored in a halted block
and in SHUTDOWN, the state unchanged and nothing emitted; else the operation runs. -/
def unlessIgnored (s : State) (k : Answer) : Answer := if s.ignoresEvents then .next s else k

/-- An operation runs only where the spec gives its row an effect (log entry 6). -/
def onlyIf (b : Bool) (k : Answer) : Answer := if b then k else .refused .notApplicable

/-- Go on after a check that may raise a fault (R228: a fault ends the step). -/
def afterCheck (s : State) (r : Except FaultCode State) (k : State → Answer) : Answer :=
  match r with
  | .error c => .next (s.raiseFault c)
  | .ok t => k t

/-! ## The source port's common checks -/

/-- Accepting an RD_DATA beat (40_source_port.md R102): F_NO_REQUEST before F_OVERLONG (60_exceptions.md R231), else
`rsp_cnt` counts the beat. -/
def State.acceptBeat (s : State) : Except FaultCode State :=
  if s.reqN = 0 then .error .noRequest
  else if s.rspCnt = s.reqN then .error .overlong
  else .ok { s with rspCnt := s.rspCnt + 1 }

/-- Accepting RD_END (40_source_port.md R103): the request and its count are cleared. -/
def State.acceptEnd (s : State) : Except FaultCode State :=
  if s.reqN = 0 then .error .noRequest
  else .ok { s with reqN := 0, rspCnt := 0 }

/-! ## The loop top -/

/-- LOOP_TOP, the procedure (44_control.md R195): a pending stop shuts the block down, else it scans again. -/
def State.loopTop (s : State) : State :=
  if s.stopPend then s.enterShutdown .stopped else { s with st := .syncing }

end Sys2Proof.Machine
end

