-- ==== Sys2Proof/Machine/Operands.lean ====
section
/-! DEFINITION. The pure functions of 43_unpacker.md: the fields of a payload byte (R160, R161), PACK (R168), the
luminance table and the grey triple (R165, R166), the whole payload's samples (R162), and the raster's index maps
(R163, R164). -/

namespace Sys2Proof.Machine

/-- `FIELD(b, k) = (b >> (6 - 2k)) mod 4` (43_unpacker.md R160): position 0 is the most significant pair. -/
def fieldOf (b : Byte) (k : BitVec 2) : Sample := (b >>> (6 - 2 * k.toNat)).setWidth 2

/-- `UNPACK(b)`: the four samples of a byte, in order (R161). -/
def unpackByte (b : Byte) : List Sample := [fieldOf b 0#2, fieldOf b 1#2, fieldOf b 2#2, fieldOf b 3#2]

/-- `PACK(s0,s1,s2,s3) = s0 ‖ s1 ‖ s2 ‖ s3` (R168), the reference function of the spec's round-trip law. -/
def packSamples (s0 s1 s2 s3 : Sample) : Byte := s0 ++ s1 ++ s2 ++ s3

/-- `raster = UNPACK(pbuf[0]) ++ … ++ UNPACK(pbuf[P-1])` (R162). -/
def unpackPayload (bs : List Byte) : List Sample := bs.flatMap unpackByte

/-- `lum(s) = 85 · s` (R165): exact in 8 bits. -/
def lumOf (x : Sample) : Byte := BitVec.ofNat 8 (Config.lumMul * x.toNat)

/-- `rgb(s) = (lum(s), lum(s), lum(s))` (R166). -/
def rgbOf (x : Sample) : Rgb := { red := lumOf x, green := lumOf x, blue := lumOf x }

/-- The sample index of the pixel at row `r`, column `c`: `r·W + c` (R163). -/
def pixelIndex (cfg : Config) (r c : Nat) : Nat := r * cfg.W + c

/-- The row of sample `i`: `i div W` (R163). -/
def pixelRow (cfg : Config) (i : Nat) : Nat := i / cfg.W

/-- The column of sample `i`: `i mod W` (R163). -/
def pixelColumn (cfg : Config) (i : Nat) : Nat := i % cfg.W

/-- The payload byte that sample `i` comes from: `i div 4` (20_memory.md R52, 43_unpacker.md R164). -/
def payloadIndex (i : Nat) : Nat := i / 4

/-- The field of that byte that sample `i` is: `i mod 4` (R52, R164). -/
def fieldIndex (i : Nat) : BitVec 2 := BitVec.ofNat 2 (i % 4)

end Sys2Proof.Machine
end

