-- ==== Sys2Proof/Machine/Accumulator.lean ====
section
/-! DEFINITION. The payload accumulator's operations (42_accumulator.md): ACC_STORE, ACC_END. -/

namespace Sys2Proof.Machine

/-- ACC_STORE (R140), in ACCUMULATING: after the checks of R102, `pbuf[cnt] <- d` and `cnt <- cnt + 1`. Were `cnt < P`
to fail, which 10_state.md R35 shows unreachable, F_UNWRITTEN is raised and the beat's count stays (R228). -/
def execAccStore (d : Byte) (s : State) : Answer :=
  unlessIgnored s (onlyIf (decide (s.st = .accumulating))
    (afterCheck s s.acceptBeat fun t =>
      if t.cnt < t.cfg.P then .next { t with pbuf := Memory.write t.pbuf t.cnt d, cnt := t.cnt + 1 }
      else .next (t.raiseFault .unwritten)))

/-- ACC_END (R141), in ACCUMULATING: after R103, on to DECODING when the payload is complete, else stay. -/
def execAccEnd (s : State) : Answer :=
  unlessIgnored s (onlyIf (decide (s.st = .accumulating))
    (afterCheck s s.acceptEnd fun t =>
      if t.cnt = t.cfg.P then .next { t with st := .decoding } else .next t))

end Sys2Proof.Machine
end

