-- ==== Sys2Proof/Machine/Control.lean ====
section
/-! DEFINITION. The lifecycle's control operations (44_control.md): START, STOP, OPEN_FAIL, SINK_ACK, the three
misplaced events and LOOP_TOP. -/

namespace Sys2Proof.Machine

/-- START (R192): the first loop top, in IDLE; F_BAD_START in any other state (R197). -/
def execStart (s : State) : Answer :=
  unlessIgnored s (if s.st = .idle then .next s.loopTop else .next (s.raiseFault .badStart))

/-- STOP (R194): latched with LOOP_TOP, acted on at once with ANY_STEP. -/
def execStop (s : State) : Answer :=
  unlessIgnored s
    (match s.cfg.stopSampling with
    | .loopTop => .next { s with stopPend := true }
    | .anyStep => .next (s.enterShutdown .stopped))

/-- OPEN_FAIL (R193): shutdown with SOURCE_UNAVAILABLE, in IDLE; F_BAD_OPEN_FAIL in any other state (R197). -/
def execOpenFail (s : State) : Answer :=
  unlessIgnored s
    (if s.st = .idle then .next (s.enterShutdown .sourceUnavailable) else .next (s.raiseFault .badOpenFail))

/-- SINK_ACK (R196): the next loop top, in PRESENTING; F_BAD_ACK in any other state (R197). -/
def execSinkAck (s : State) : Answer :=
  unlessIgnored s (if s.st = .presenting then .next s.loopTop else .next (s.raiseFault .badAck))

/-- START_MISPLACED (R197), outside IDLE: F_BAD_START. -/
def execStartMisplaced (s : State) : Answer :=
  unlessIgnored s (onlyIf (decide (s.st ≠ .idle)) (.next (s.raiseFault .badStart)))

/-- OPEN_FAIL_MISPLACED (R197), outside IDLE: F_BAD_OPEN_FAIL. -/
def execOpenFailMisplaced (s : State) : Answer :=
  unlessIgnored s (onlyIf (decide (s.st ≠ .idle)) (.next (s.raiseFault .badOpenFail)))

/-- SINK_ACK_MISPLACED (R197), outside PRESENTING: F_BAD_ACK. -/
def execSinkAckMisplaced (s : State) : Answer :=
  unlessIgnored s (onlyIf (decide (s.st ≠ .presenting)) (.next (s.raiseFault .badAck)))

/-- LOOP_TOP runs where START and SINK_ACK call it (R195): in IDLE and in PRESENTING of a block that is not halted. -/
def State.atLoopTop (s : State) : Bool := !s.halted && decide (s.st = .idle ∨ s.st = .presenting)

/-- LOOP_TOP (R195), as a row of the opcode table. -/
def execLoopTop (s : State) : Answer := onlyIf s.atLoopTop (.next s.loopTop)

end Sys2Proof.Machine
end

