-- ==== Sys2Proof/Machine/Reserved.lean ====
section
/-! DEFINITION. The reserved and illegal words (30_encoding.md R78) and the words an ended or halted block ignores
(60_exceptions.md R226, R229). -/

namespace Sys2Proof.Machine

/-- ILLEGAL_KIND_7 (R78): F_ILLEGAL_EVENT. -/
def execIllegalKind7 (_data : Byte) (s : State) : Answer :=
  unlessIgnored s (.next (s.raiseFault .illegalEvent))

/-- ILLEGAL_KIND_8_F (R78): F_ILLEGAL_EVENT. -/
def execIllegalKind8F (_low : BitVec 3) (_data : Byte) (s : State) : Answer :=
  unlessIgnored s (.next (s.raiseFault .illegalEvent))

/-- ILLEGAL_DATA (R78), a kind 0x1..0x6 with data that is not zero: F_ILLEGAL_EVENT. -/
def execIllegalData (kind : BitVec 4) (data : Byte) (s : State) : Answer :=
  unlessIgnored s
    (onlyIf (decide (1 ≤ kind.toNat) && decide (kind.toNat ≤ 6) && decide (data ≠ 0#8))
      (.next (s.raiseFault .illegalEvent)))

/-- SHUTDOWN_IGNORE (R226, R229): the state is unchanged and nothing is emitted. -/
def execShutdownIgnore (_kind : BitVec 4) (_data : Byte) (s : State) : Answer :=
  unlessIgnored s (.refused .notApplicable)

end Sys2Proof.Machine
end

