-- ==== Sys2Proof/Machine/SourcePort.lean ====
section
/-! DEFINITION. The source port's operations (40_source_port.md): RD_DATA_CHECK, RD_END_CHECK, SRC_CLOSED, ISSUE. -/

namespace Sys2Proof.Machine

/-- RD_DATA_CHECK (R102): the checks and the count common to every data beat. -/
def execRdDataCheck (_d : Byte) (s : State) : Answer :=
  unlessIgnored s (afterCheck s s.acceptBeat .next)

/-- RD_END_CHECK (R103): the check and the clearing common to every end of a response. -/
def execRdEndCheck (s : State) : Answer :=
  unlessIgnored s (afterCheck s s.acceptEnd .next)

/-- SRC_CLOSED (R104): F_NO_REQUEST with no request outstanding, else shutdown with SOURCE_CLOSED. -/
def execSrcClosed (s : State) : Answer :=
  unlessIgnored s (if s.reqN = 0 then .next (s.raiseFault .noRequest) else .next (s.enterShutdown .sourceClosed))

/-- ISSUE is enabled (R100) when `fault = NONE`, `st` is SYNCING or ACCUMULATING and `req_n = 0`. -/
def State.issueEnabled (s : State) : Bool :=
  !s.halted && decide (s.st = .syncing ∨ s.st = .accumulating) && decide (s.reqN = 0)

/-- The size of the request ISSUE makes (R100): 1 while scanning, else the remaining deficit `P - cnt`. -/
def State.requestSize (s : State) : Nat := if s.st = .syncing then 1 else s.cfg.P - s.cnt

/-- ISSUE (R100): `req_n` and `rsp_cnt` are set and RD_REQ is emitted. -/
def execIssue (s : State) : Answer :=
  onlyIf s.issueEnabled
    (.next ({ s with reqN := s.requestSize, rspCnt := 0 }.emit (.rdReq s.requestSize)))

end Sys2Proof.Machine
end

