-- ==== Sys2Proof/Machine/Synchronizer.lean ====
section
/-! DEFINITION. The frame synchronizer's operations (41_synchronizer.md): SYNC_DISCARD, SYNC_HIT, SYNC_END. -/

namespace Sys2Proof.Machine

/-- SYNC_DISCARD (R120), in SYNCING with `d ≠ S`: after the checks of R102 the byte is dropped. -/
def execSyncDiscard (d : Byte) (s : State) : Answer :=
  unlessIgnored s (onlyIf (decide (s.st = .syncing) && decide (d ≠ s.cfg.S))
    (afterCheck s s.acceptBeat .next))

/-- SYNC_HIT (R121), in SYNCING: after the checks of R102, `cnt <- 0` and on to ACCUMULATING. -/
def execSyncHit (s : State) : Answer :=
  unlessIgnored s (onlyIf (decide (s.st = .syncing))
    (afterCheck s s.acceptBeat fun t => .next { t with cnt := 0, st := .accumulating }))

/-- SYNC_END (R122), in SYNCING: after R103 the block stays in SYNCING; settle asks again. -/
def execSyncEnd (s : State) : Answer :=
  unlessIgnored s (onlyIf (decide (s.st = .syncing)) (afterCheck s s.acceptEnd .next))

end Sys2Proof.Machine
end

