-- ==== Sys2Proof/Machine/Unpacker.lean ====
section
/-! DEFINITION. The pixel unpacker's operations (43_unpacker.md): DECODE, and the pure functions FIELD, UNPACK, LUM and
RGB run as rows of the opcode table, whose result goes to `fnOut` (log entry 5). -/

namespace Sys2Proof.Machine

/-- DECODE is enabled (R162) when `fault = NONE` and `st = DECODING`. -/
def State.decodeEnabled (s : State) : Bool := !s.halted && decide (s.st = .decoding)

/-- DECODE (R162): the whole payload is unpacked into the raster, in one step. An `unwritten` entry of the payload,
which 10_state.md R34 shows impossible, raises F_UNWRITTEN before anything is written (R228; log entry 9). -/
def execDecode (s : State) : Answer :=
  onlyIf s.decodeEnabled
    (match Memory.readRange s.pbuf 0 s.cfg.P with
    | none => .next (s.raiseFault .unwritten)
    | some bs =>
      .next ({ s with raster := Memory.ofValues 0 (unpackPayload bs), st := .presenting }.emit
        (.frame (unpackPayload bs))))

/-- FIELD (R160). -/
def execField (b : Byte) (k : BitVec 2) (s : State) : Answer :=
  .next { s with fnOut := .sample (fieldOf b k) }

/-- UNPACK (R161). -/
def execUnpack (b : Byte) (s : State) : Answer :=
  .next { s with fnOut := .samples (unpackByte b) }

/-- LUM (R165). -/
def execLum (x : Sample) (s : State) : Answer :=
  .next { s with fnOut := .level (lumOf x) }

/-- RGB (R166). -/
def execRgb (x : Sample) (s : State) : Answer :=
  .next { s with fnOut := .triple (rgbOf x) }

end Sys2Proof.Machine
end

