-- ==== Sys2Proof/Machine/Dispatch.lean ====
section
/-! DEFINITION. The dispatch: one arm per row of spec/opcode_table.json, each one call of the row's meaning. -/

namespace Sys2Proof.Machine

def exec (i : Instr) (s : State) : Host.Outcome State Fault Refusal :=
  match i with
  | .syncDiscard d => Sys2Proof.Machine.execSyncDiscard d s
  | .syncHit => Sys2Proof.Machine.execSyncHit s
  | .accStore d => Sys2Proof.Machine.execAccStore d s
  | .rdDataCheck d => Sys2Proof.Machine.execRdDataCheck d s
  | .syncEnd => Sys2Proof.Machine.execSyncEnd s
  | .accEnd => Sys2Proof.Machine.execAccEnd s
  | .rdEndCheck => Sys2Proof.Machine.execRdEndCheck s
  | .srcClosed => Sys2Proof.Machine.execSrcClosed s
  | .start => Sys2Proof.Machine.execStart s
  | .stop => Sys2Proof.Machine.execStop s
  | .openFail => Sys2Proof.Machine.execOpenFail s
  | .sinkAck => Sys2Proof.Machine.execSinkAck s
  | .startMisplaced => Sys2Proof.Machine.execStartMisplaced s
  | .openFailMisplaced => Sys2Proof.Machine.execOpenFailMisplaced s
  | .sinkAckMisplaced => Sys2Proof.Machine.execSinkAckMisplaced s
  | .illegalKind7 data => Sys2Proof.Machine.execIllegalKind7 data s
  | .illegalKind8F low data => Sys2Proof.Machine.execIllegalKind8F low data s
  | .illegalData kind data => Sys2Proof.Machine.execIllegalData kind data s
  | .shutdownIgnore kind data => Sys2Proof.Machine.execShutdownIgnore kind data s
  | .issue => Sys2Proof.Machine.execIssue s
  | .decode => Sys2Proof.Machine.execDecode s
  | .loopTop => Sys2Proof.Machine.execLoopTop s
  | .field b k => Sys2Proof.Machine.execField b k s
  | .unpack b => Sys2Proof.Machine.execUnpack b s
  | .lum x => Sys2Proof.Machine.execLum x s
  | .rgb x => Sys2Proof.Machine.execRgb x s

end Sys2Proof.Machine
end

