-- ==== Sys2Proof/Machine/Events.lean ====
section
/-! DEFINITION. One event of the block: the operation the word selects (30_encoding.md R77), then settle
(44_control.md R190, R191); taking the host's next input; booting under a configuration (70_reset_and_hazards.md
R262). -/

namespace Sys2Proof.Machine

/-- The operation the event word `e` selects in the state `s` (30_encoding.md R77). -/
def State.selects (s : State) (e : EventWord) : Instr := decodeEvent s.cfg.S s.st s.halted e

/-- The internal operation that is enabled, if one is (44_control.md R191): none in a halted block or in SHUTDOWN. -/
def State.enabledOperation (s : State) : Option Instr :=
  if s.decodeEnabled then some .decode
  else if s.issueEnabled then some .issue
  else none

/-- SETTLE (44_control.md R191): the enabled internal operation runs. At most one runs per settle, as R191 itself says,
so the loop is one pass (log entry 8). -/
def settle (s : State) : Answer :=
  match s.enabledOperation with
  | some i => exec i s
  | none => .next s

/-- One event in full (R10, R190): the selected operation, then settle. An ignored event and a fault are followed by no
internal operation, since none is enabled there (R226, R229). -/
def takeEvent (s : State) (e : EventWord) : Answer := Answer.andThen (exec (s.selects e) s) settle

/-- The host's next input (R10, R232, R260), one a step. With no input there the block waits: an ordinary state, all of
it kept (60_exceptions.md R241; log entry 2). -/
def takeInput (s : State) : Answer :=
  match s.inputs with
  | [] => .next s
  | .reset :: rest => .next { s with inputs := rest }.applyReset
  | .event e :: rest => takeEvent { s with inputs := rest } e

/-- A step is taken only under a legal configuration (00_scope.md R5, R10). -/
def stepUnderLegal (s : State) : Answer :=
  if s.cfg.legal then takeInput s else .refused .illegalConfiguration

/-- The host's boot, its first step (70_reset_and_hazards.md R262): a legal configuration is fixed and the block reset;
any other is refused before reset (00_scope.md R5). -/
def boot (cfg : Config) : Answer :=
  if cfg.legal then .next (State.resetWith cfg) else .refused .illegalConfiguration

/-- The host hands over the event word `e` as its very next input (log entry 11). -/
def State.withNextEvent (s : State) (e : EventWord) : State := { s with inputs := .event e :: s.inputs }

end Sys2Proof.Machine
end

