-- ==== Sys2Proof/Machine/Step.lean ====
section
/-! DEFINITION. The step of the machine, and the placing of one event word where the next step takes it. -/

namespace Sys2Proof.Machine

/-- One step: the host's next input, taken in full (00_scope.md R10). -/
def step (s : State) : Host.Outcome State Fault Refusal := stepUnderLegal s

/-- The event word whose bits are `w` becomes the host's next input, which the next step takes; nothing else changes
(log entry 11). -/
def State.withFetchWord (s : State) (_nbits w : Nat) : State := s.withNextEvent (BitVec.ofNat 12 w)

end Sys2Proof.Machine
end

