-- ==== Sys2Proof/Machine/Flags.lean ====
section
/-! DEFINITION. The block's level outputs and status words, all functions of the state (10_state.md R30, R36), and the
codes of the three code registers (R21, R26, R27). The block has no flags (R32). -/

namespace Sys2Proof.Machine

/-- The code of `st` (10_state.md R21). -/
def stCode : Lifecycle → BitVec 3
  | .idle => 0#3
  | .syncing => 1#3
  | .accumulating => 2#3
  | .decoding => 3#3
  | .presenting => 4#3
  | .shutdown => 5#3

/-- The code of `exit` (10_state.md R26). -/
def exitCode : ExitCode → BitVec 2
  | .none => 0#2
  | .stopped => 1#2
  | .sourceClosed => 2#2
  | .sourceUnavailable => 3#2

/-- The code of `fault` (10_state.md R27). -/
def faultCode : FaultCode → BitVec 3
  | .none => 0#3
  | .illegalEvent => 1#3
  | .noRequest => 2#3
  | .overlong => 3#3
  | .badStart => 4#3
  | .badOpenFail => 5#3
  | .badAck => 6#3
  | .unwritten => 7#3

/-- `frame_valid = (st = PRESENTING)` (R30); it does not look at `fault`. -/
def State.frameValid (s : State) : Bool := decide (s.st = .presenting)

/-- `src_release = (st = SHUTDOWN) or (fault ≠ NONE)` (R30). -/
def State.srcRelease (s : State) : Bool := decide (s.st = .shutdown) || decide (s.fault ≠ .none)

/-- `sink_release`, equal to `src_release` (R30). -/
def State.sinkRelease (s : State) : Bool := s.srcRelease

/-- `frame_sample[i] = raster[i]`, defined only while `frame_valid` (R30, 43_unpacker.md R167; log entry 13). -/
def State.frameSample (s : State) (i : Nat) : Option Sample :=
  if s.frameValid && decide (i < s.cfg.N) then Memory.read s.raster i else none

/-- `frame_lum[i] = lum(raster[i])` (R30, R165). -/
def State.frameLum (s : State) (i : Nat) : Option Byte := (s.frameSample i).map lumOf

/-- `frame_rgb[i] = rgb(raster[i])` (R30, R166). -/
def State.frameRgb (s : State) (i : Nat) : Option Rgb := (s.frameSample i).map rgbOf

/-- The frame port addressed by row and column (43_unpacker.md R163, R167). -/
def State.framePixel (s : State) (r c : Nat) : Option Sample :=
  if decide (r < s.cfg.H) && decide (c < s.cfg.W) then s.frameSample (pixelIndex s.cfg r c) else none

/-- The 11-bit status word (10_state.md R36): release, frame_valid, fault, exit, stop_pend, st, from bit 10 down. -/
def State.status (s : State) : StatusWord :=
  BitVec.ofBool s.srcRelease ++ BitVec.ofBool s.frameValid ++ faultCode s.fault ++ exitCode s.exit
    ++ BitVec.ofBool s.stopPend ++ stCode s.st

/-- The output word `count` (R36). -/
def State.countWord (s : State) : BitVec s.cfg.cntW := BitVec.ofNat s.cfg.cntW s.cnt

/-- The output word `request` (R36). -/
def State.requestWord (s : State) : BitVec s.cfg.cntW := BitVec.ofNat s.cfg.cntW s.reqN

/-- The output word `received` (R36). -/
def State.receivedWord (s : State) : BitVec s.cfg.cntW := BitVec.ofNat s.cfg.cntW s.rspCnt

/-- The process exit status an exit code maps to (60_exceptions.md R234, decision D22): none while the block runs. -/
def processExitStatus : ExitCode → Option Nat
  | .none => none
  | .stopped => some 0
  | .sourceClosed => some 0
  | .sourceUnavailable => some Config.exitUnavailable

end Sys2Proof.Machine
end

