-- ==== Sys2Proof/Machine/Trace.lean ====
section
/-! DEFINITION. The trace notation of 30_encoding.md R80, as data: its base mnemonics and its pseudo-instructions, with
the event words each stands for. -/

namespace Sys2Proof.Machine

/-- One line of a trace (R80). -/
inductive TraceLine where
  /-- `DATA b` -/
  | data (b : Byte)
  /-- `END` -/
  | endResponse
  /-- `CLOSED` -/
  | closed
  /-- `START` -/
  | start
  /-- `STOP` -/
  | stop
  /-- `OPENFAIL` -/
  | openFail
  /-- `ACK` -/
  | ack
  /-- `EVT w`: the raw word, reserved words included. -/
  | evt (w : EventWord)
  /-- `CHUNK b1 ... bk` -/
  | chunk (bs : List Byte)
  /-- `EMPTY` -/
  | empty
  /-- `REP n DATA b` -/
  | rep (n : Nat) (b : Byte)
  /-- `SEND_FRAME b1 ... bP` -/
  | sendFrame (bs : List Byte)
  deriving DecidableEq, Repr

/-- `DATA b` is the word `0x0hh` (R80, R81). -/
def dataWord (b : Byte) : EventWord := eventWord 0#4 b

/-- `CHUNK b1 ... bk`: the bytes, then END (R80). -/
def chunkWords (bs : List Byte) : List EventWord := bs.map dataWord ++ [0x100#12]

/-- The event words a line stands for, for the sentinel `S` (R80). -/
def traceWords (S : Byte) : TraceLine → List EventWord
  | .data b => [dataWord b]
  | .endResponse => [0x100#12]
  | .closed => [0x200#12]
  | .start => [0x300#12]
  | .stop => [0x400#12]
  | .openFail => [0x500#12]
  | .ack => [0x600#12]
  | .evt w => [w]
  | .chunk bs => chunkWords bs
  | .empty => [0x100#12]
  | .rep n b => List.replicate n (dataWord b)
  | .sendFrame bs => chunkWords [S] ++ chunkWords bs

/-- SEND_FRAME is legal only while a 1-byte request is outstanding in SYNCING, for `P` bytes (R80). -/
def sendFrameLegal (s : State) (bs : List Byte) : Bool :=
  decide (s.st = .syncing) && decide (s.reqN = 1) && decide (s.rspCnt = 0) && decide (bs.length = s.cfg.P)

/-- A trace as the inputs the host delivers. -/
def traceInputs (S : Byte) (lines : List TraceLine) : List Input :=
  (lines.flatMap (traceWords S)).map Input.event

end Sys2Proof.Machine
end

