-- ==== Sys2Proof/Safety.lean ====
section
/-! DEFINITION. What the statements about runs are made of: what the host must do for no fault to occur
(40_source_port.md R101, 44_control.md R199), the invariant of 10_state.md R34, the order of the lifecycle
(44_control.md R198), and where an operation of the opcode table has an effect. -/

namespace Sys2Proof.Machine

/-- A claim about the block takes `fault = NONE` as a premise (60_exceptions.md R228). -/
def State.safe (s : State) : Bool := decide (s.fault = .none)

/-- The final state of a run: SHUTDOWN with `fault = NONE` (60_exceptions.md R226). -/
def State.final (s : State) : Bool := decide (s.st = .shutdown) && s.safe

/-- Whether the host keeps the contract by delivering the word `e` now: a legal word (30_encoding.md R78); a data beat
only within an outstanding request (40_source_port.md R101); an end or a closure only for one (R101); START and
OPEN_FAIL only in IDLE, SINK_ACK only in PRESENTING, STOP at any time (44_control.md R199). -/
def hostDuty (s : State) (e : EventWord) : Bool :=
  !illegalWord e &&
    match (eventKind e).toNat with
    | 0 => decide (s.reqN ≠ 0) && decide (s.rspCnt < s.reqN)
    | 1 => decide (s.reqN ≠ 0)
    | 2 => decide (s.reqN ≠ 0)
    | 3 => decide (s.st = .idle)
    | 4 => true
    | 5 => decide (s.st = .idle)
    | _ => decide (s.st = .presenting)

/-- The items of 10_state.md R34, for a state between two events with `fault = NONE`. -/
structure LiveInv (s : State) : Prop where
  /-- Item 1. -/
  notDecoding : s.st ≠ .decoding
  /-- Item 2. -/
  requestIff : (s.st = .syncing ∨ s.st = .accumulating) ↔ 1 ≤ s.reqN
  /-- Item 3. -/
  noRequestNoBeats : s.reqN = 0 → s.rspCnt = 0
  /-- Item 4, as a fact of the state: the entries are written (log entry 16). -/
  payloadWritten : s.st = .accumulating → ∀ j, j < s.cnt → (Memory.read s.pbuf j).isSome
  /-- Item 5. -/
  rasterDecoded : s.st = .presenting → s.cnt = s.cfg.P ∧ ∀ i, i < s.cfg.N →
    ∃ b, Memory.read s.pbuf (payloadIndex i) = some b ∧ Memory.read s.raster i = some (fieldOf b (fieldIndex i))
  /-- Item 6. -/
  exitIff : s.exit ≠ .none ↔ s.st = .shutdown
  /-- Item 7, with the response that held the sentinel beside it (R35): either that response is still open, or the
  outstanding request was issued in ACCUMULATING. -/
  countFollowsBeats : s.st = .accumulating →
    (s.cnt = 0 ∧ s.reqN = 1 ∧ s.rspCnt = 1) ∨ (s.reqN + s.cnt = s.cfg.P + s.rspCnt ∧ s.rspCnt ≤ s.cnt)
  /-- A scan asks for one byte (40_source_port.md R100). -/
  scanAsksOne : s.st = .syncing → s.reqN = 1

/-- The invariant of the machine between two events. -/
structure Inv (s : State) : Prop where
  /-- The configuration is legal (00_scope.md R5). -/
  legal : s.cfg.legal = true
  /-- `cnt` lies in `0..P` (R6, R22). -/
  cntLe : s.cnt ≤ s.cfg.P
  /-- `req_n` lies in `0..P` (R6, R23). -/
  reqLe : s.reqN ≤ s.cfg.P
  /-- `rsp_cnt` never exceeds `req_n` (R24, R34 item 3). -/
  rspLe : s.rspCnt ≤ s.reqN
  /-- The payload buffer keeps its canonical form, indexes `0..P-1` (20_memory.md R58). -/
  pbufWf : Memory.wf s.cfg.P s.pbuf = true
  /-- The raster keeps its canonical form, indexes `0..N-1` (R58). -/
  rasterWf : Memory.wf s.cfg.N s.raster = true
  /-- With `ANY_STEP`, `stop_pend` stays 0 (R25). -/
  anyStepNoPend : s.cfg.stopSampling = .anyStep → s.stopPend = false
  /-- While no fault is recorded, R34 holds. -/
  live : s.fault = .none → LiveInv s

/-- The lifecycle's moves between two events (44_control.md R198): a state may stay as it is; else IDLE to SYNCING, to
ACCUMULATING, to PRESENTING, and back to SYNCING; and any state may end in SHUTDOWN. -/
def lifecycleMove (a b : Lifecycle) : Bool :=
  decide (a = b) || decide (b = .shutdown) ||
    decide ((a = .idle ∧ b = .syncing) ∨ (a = .syncing ∧ b = .accumulating) ∨
      (a = .accumulating ∧ b = .presenting) ∨ (a = .presenting ∧ b = .syncing))

/-- Where an operation of the opcode table has an effect (log entry 6): an event operation in a block that ignores
events (R226, R229), or in the states and on the operands its rule is given for; an internal operation where it is
enabled (R100, R162) or called (R195); a pure function always. -/
def applicable (i : Instr) (s : State) : Bool :=
  match i with
  | .syncDiscard d => s.ignoresEvents || (decide (s.st = .syncing) && decide (d ≠ s.cfg.S))
  | .syncHit | .syncEnd => s.ignoresEvents || decide (s.st = .syncing)
  | .accStore _ | .accEnd => s.ignoresEvents || decide (s.st = .accumulating)
  | .rdDataCheck _ | .rdEndCheck | .srcClosed => true
  | .start | .stop | .openFail | .sinkAck => true
  | .startMisplaced | .openFailMisplaced => s.ignoresEvents || decide (s.st ≠ .idle)
  | .sinkAckMisplaced => s.ignoresEvents || decide (s.st ≠ .presenting)
  | .illegalKind7 _ | .illegalKind8F _ _ => true
  | .illegalData kind data =>
    s.ignoresEvents || (decide (1 ≤ kind.toNat) && decide (kind.toNat ≤ 6) && decide (data ≠ 0#8))
  | .shutdownIgnore _ _ => s.ignoresEvents
  | .issue => !s.halted && decide (s.st = .syncing ∨ s.st = .accumulating) && decide (s.reqN = 0)
  | .decode => !s.halted && decide (s.st = .decoding)
  | .loopTop => !s.halted && decide (s.st = .idle ∨ s.st = .presenting)
  | .field _ _ | .unpack _ | .lum _ | .rgb _ => true

/-- The inputs of one response: its data beats, then RD_END (40_source_port.md R101). -/
def responseInputs (bs : List Byte) : List Input := (chunkWords bs).map Input.event

/-- The inputs of several responses, one after another. -/
def responsesInputs (chunks : List (List Byte)) : List Input := chunks.flatMap responseInputs

end Sys2Proof.Machine
end

