-- ==== Sys2Proof/Certificates/Slice0/Obligations.lean ====
section
/-! DEFINITION. The statements about the frame synchronizer block, for the provers. Each docstring names the rule of
spec/ it formalises. `s` is any state, reachable or not, unless a premise says otherwise. A next state is written out
field by field, so each result below is also the operation's frame: what is not named is unchanged. -/

open Sys2Proof Sys2Proof.Machine

/-! ## The step -/

/-- 44_control.md R190: an event is taken by the operation that 30_encoding.md R77 selects for it, then settle. -/
def Obligations.StepRunsSelectedOperation : Prop :=
  ∀ (s : State) (e : EventWord) (rest : List Input), s.cfg.legal = true → s.inputs = .event e :: rest →
    step s = Answer.andThen
      (exec (decodeEvent s.cfg.S s.st (decide (s.fault ≠ .none)) e) { s with inputs := rest }) settle

/-- 30_encoding.md R77, R78 and R81: the words written out bit by bit, each in a state whose cell of R77 it selects. -/
def Obligations.SpecWordsDecodeToTheirRows : Prop :=
  decodeEvent 0x26#8 .syncing false 0b000001000001#12 = .syncDiscard 0x41#8 ∧
  decodeEvent 0x26#8 .syncing false 0b000000100110#12 = .syncHit ∧
  decodeEvent 0x26#8 .accumulating false 0b000000100110#12 = .accStore 0x26#8 ∧
  decodeEvent 0x26#8 .idle false 0b000000100110#12 = .rdDataCheck 0x26#8 ∧
  decodeEvent 0x26#8 .accumulating false 0b000100000000#12 = .accEnd ∧
  decodeEvent 0x26#8 .syncing false 0b001000000000#12 = .srcClosed ∧
  decodeEvent 0x26#8 .idle false 0b001100000000#12 = .start ∧
  decodeEvent 0x26#8 .presenting false 0b010000000000#12 = .stop ∧
  decodeEvent 0x26#8 .presenting false 0b010100000000#12 = .openFailMisplaced ∧
  decodeEvent 0x26#8 .presenting false 0b011000000000#12 = .sinkAck ∧
  decodeEvent 0x26#8 .syncing false 0b011100100110#12 = .illegalKind7 0x26#8 ∧
  decodeEvent 0x26#8 .syncing false 0b111100000000#12 = .illegalKind8F 7#3 0x00#8 ∧
  decodeEvent 0x26#8 .syncing false 0b000100000001#12 = .illegalData 1#4 0x01#8 ∧
  decodeEvent 0x26#8 .shutdown false 0b100000000000#12 = .shutdownIgnore 8#4 0x00#8

/-- 70_reset_and_hazards.md R260 and 10_state.md R36: what reset leaves, under every configuration; and what a reset
delivered in any state, faulted and SHUTDOWN included, leaves. That the model's own fields stay at such a reset is the
model's choice (log entry 14). -/
def Obligations.ResetGivesEveryFieldItsResetValue : Prop :=
  (∀ cfg : Config,
    (State.resetWith cfg).st = .idle ∧ (State.resetWith cfg).cnt = 0 ∧ (State.resetWith cfg).reqN = 0 ∧
    (State.resetWith cfg).rspCnt = 0 ∧ (State.resetWith cfg).stopPend = false ∧
    (State.resetWith cfg).exit = .none ∧ (State.resetWith cfg).fault = .none ∧
    (∀ j, Memory.read (State.resetWith cfg).pbuf j = none) ∧
    (∀ i, Memory.read (State.resetWith cfg).raster i = none) ∧
    (State.resetWith cfg).frameValid = false ∧ (State.resetWith cfg).srcRelease = false ∧
    (State.resetWith cfg).sinkRelease = false ∧ (State.resetWith cfg).status = 0#11) ∧
  (∀ (s : State) (rest : List Input), s.cfg.legal = true → s.inputs = .reset :: rest →
    step s = .next { State.resetWith s.cfg with inputs := rest, outs := s.outs, fnOut := s.fnOut })

/-- 00_scope.md R5: an illegal configuration is refused before reset; that a step under one is refused too is the model's
choice (log entry 4). -/
def Obligations.IllegalConfigurationIsRefused : Prop :=
  (∀ cfg : Config, (1 ≤ cfg.W ∧ 1 ≤ cfg.H ∧ cfg.W * cfg.H % 4 = 0) → boot cfg = .next (State.resetWith cfg)) ∧
  (∀ cfg : Config, ¬ (1 ≤ cfg.W ∧ 1 ≤ cfg.H ∧ cfg.W * cfg.H % 4 = 0) → boot cfg = .refused .illegalConfiguration) ∧
  (∀ s : State, ¬ (1 ≤ s.cfg.W ∧ 1 ≤ s.cfg.H ∧ s.cfg.W * s.cfg.H % 4 = 0) →
    step s = .refused .illegalConfiguration)

/-! ## The source port -/

/-- 40_source_port.md R102: RD_DATA_CHECK, in any block that takes events. -/
def Obligations.RdDataCheckCountsTheBeatOrFaults : Prop :=
  ∀ (s : State) (d : Byte), s.fault = .none → s.st ≠ .shutdown →
    exec (.rdDataCheck d) s = .next
      (if s.reqN = 0 then { s with fault := .noRequest, outs := s.outs ++ [.fault .noRequest] }
       else if s.rspCnt = s.reqN then { s with fault := .overlong, outs := s.outs ++ [.fault .overlong] }
       else { s with rspCnt := s.rspCnt + 1 })

/-- 40_source_port.md R102: the whole of an RD_DATA event, its checks and the rule it dispatches to. -/
def Obligations.DataEventFollowsTheBeatRule : Prop :=
  ∀ (s : State) (d : Byte), s.fault = .none → s.st ≠ .shutdown →
    exec (s.selects (eventWord 0#4 d)) s = .next
      (if s.reqN = 0 then { s with fault := .noRequest, outs := s.outs ++ [.fault .noRequest] }
       else if s.rspCnt = s.reqN then { s with fault := .overlong, outs := s.outs ++ [.fault .overlong] }
       else if s.st = .syncing then
         (if d = s.cfg.S then { s with rspCnt := s.rspCnt + 1, cnt := 0, st := .accumulating }
          else { s with rspCnt := s.rspCnt + 1 })
       else if s.st = .accumulating then
         (if s.cnt < s.cfg.P then
            { s with rspCnt := s.rspCnt + 1, pbuf := Memory.write s.pbuf s.cnt d, cnt := s.cnt + 1 }
          else
            { s with rspCnt := s.rspCnt + 1, fault := .unwritten, outs := s.outs ++ [.fault .unwritten] })
       else { s with rspCnt := s.rspCnt + 1 })

/-- 40_source_port.md R103: RD_END_CHECK, in any block that takes events. -/
def Obligations.RdEndCheckClearsTheRequestOrFaults : Prop :=
  ∀ s : State, s.fault = .none → s.st ≠ .shutdown →
    exec .rdEndCheck s = .next
      (if s.reqN = 0 then { s with fault := .noRequest, outs := s.outs ++ [.fault .noRequest] }
       else { s with reqN := 0, rspCnt := 0 })

/-- 40_source_port.md R103: the whole of an RD_END event, its check and the rule it dispatches to. -/
def Obligations.EndEventFollowsTheEndRule : Prop :=
  ∀ s : State, s.fault = .none → s.st ≠ .shutdown →
    exec (s.selects 0x100#12) s = .next
      (if s.reqN = 0 then { s with fault := .noRequest, outs := s.outs ++ [.fault .noRequest] }
       else if s.st = .accumulating ∧ s.cnt = s.cfg.P then { s with reqN := 0, rspCnt := 0, st := .decoding }
       else { s with reqN := 0, rspCnt := 0 })

/-- 40_source_port.md R104 with 60_exceptions.md R225: SRC_CLOSED, whatever `stop_pend` holds; `cnt` and `pbuf` stay. -/
def Obligations.SrcClosedShutsDownOrFaults : Prop :=
  ∀ s : State, s.fault = .none → s.st ≠ .shutdown →
    s.selects 0x200#12 = .srcClosed ∧
    exec .srcClosed s = .next
      (if s.reqN = 0 then { s with fault := .noRequest, outs := s.outs ++ [.fault .noRequest] }
       else { s with st := .shutdown, exit := .sourceClosed, reqN := 0, rspCnt := 0,
                     outs := s.outs ++ [.release .sourceClosed] })

/-- 40_source_port.md R100: ISSUE asks for 1 byte in SYNCING whatever `cnt` holds, for `P - cnt` in ACCUMULATING; and
where it is the enabled internal operation. -/
def Obligations.IssueRequestsOneByteOrTheDeficit : Prop :=
  (∀ s : State, s.enabledOperation = some .issue ↔
    s.fault = .none ∧ (s.st = .syncing ∨ s.st = .accumulating) ∧ s.reqN = 0) ∧
  (∀ s : State, s.fault = .none → s.st = .syncing → s.reqN = 0 →
    exec .issue s = .next { s with reqN := 1, rspCnt := 0, outs := s.outs ++ [.rdReq 1] }) ∧
  (∀ s : State, s.fault = .none → s.st = .accumulating → s.reqN = 0 →
    exec .issue s = .next { s with reqN := s.cfg.P - s.cnt, rspCnt := 0,
                                   outs := s.outs ++ [.rdReq (s.cfg.P - s.cnt)] })

/-! ## The synchronizer -/

/-- 41_synchronizer.md R120: SYNC_DISCARD drops the byte; R102's faults come first. -/
def Obligations.SyncDiscardDropsTheByte : Prop :=
  ∀ (s : State) (d : Byte), s.fault = .none → s.st = .syncing → d ≠ s.cfg.S →
    s.selects (eventWord 0#4 d) = .syncDiscard d ∧
    exec (.syncDiscard d) s = .next
      (if s.reqN = 0 then { s with fault := .noRequest, outs := s.outs ++ [.fault .noRequest] }
       else if s.rspCnt = s.reqN then { s with fault := .overlong, outs := s.outs ++ [.fault .overlong] }
       else { s with rspCnt := s.rspCnt + 1 })

/-- 41_synchronizer.md R121: SYNC_HIT clears `cnt` and goes to ACCUMULATING; the sentinel is not stored. -/
def Obligations.SyncHitStartsAFrame : Prop :=
  ∀ s : State, s.fault = .none → s.st = .syncing →
    s.selects (eventWord 0#4 s.cfg.S) = .syncHit ∧
    exec .syncHit s = .next
      (if s.reqN = 0 then { s with fault := .noRequest, outs := s.outs ++ [.fault .noRequest] }
       else if s.rspCnt = s.reqN then { s with fault := .overlong, outs := s.outs ++ [.fault .overlong] }
       else { s with rspCnt := s.rspCnt + 1, cnt := 0, st := .accumulating })

/-- 41_synchronizer.md R122 with 40_source_port.md R103: SYNC_END clears the request and stays in SYNCING, and settle
asks for one byte again; with no request outstanding it is F_NO_REQUEST. -/
def Obligations.SyncEndAsksAgain : Prop :=
  (∀ s : State, s.fault = .none → s.st = .syncing → s.reqN = 0 →
    exec .syncEnd s = .next { s with fault := .noRequest, outs := s.outs ++ [.fault .noRequest] }) ∧
  (∀ s : State, s.fault = .none → s.st = .syncing → s.reqN ≠ 0 →
    s.selects 0x100#12 = .syncEnd ∧
    exec .syncEnd s = .next { s with reqN := 0, rspCnt := 0 } ∧
    Answer.andThen (exec .syncEnd s) settle =
      .next { s with reqN := 1, rspCnt := 0, outs := s.outs ++ [.rdReq 1] })

/-! ## The accumulator -/

/-- 42_accumulator.md R140 and 20_memory.md R51: ACC_STORE stores the byte, whatever its value, at `cnt`, and nowhere
else; R102's faults come first, and `cnt < P` failing raises F_UNWRITTEN with the beat counted (R228). -/
def Obligations.AccStoreStoresTheByteAtCount : Prop :=
  ∀ (s : State) (d : Byte), s.fault = .none → s.st = .accumulating →
    s.selects (eventWord 0#4 d) = .accStore d ∧
    (s.reqN = 0 → exec (.accStore d) s =
      .next { s with fault := .noRequest, outs := s.outs ++ [.fault .noRequest] }) ∧
    (s.reqN ≠ 0 → s.rspCnt = s.reqN → exec (.accStore d) s =
      .next { s with fault := .overlong, outs := s.outs ++ [.fault .overlong] }) ∧
    (s.reqN ≠ 0 → s.rspCnt ≠ s.reqN → s.cfg.P ≤ s.cnt → exec (.accStore d) s =
      .next { s with rspCnt := s.rspCnt + 1, fault := .unwritten, outs := s.outs ++ [.fault .unwritten] }) ∧
    (s.reqN ≠ 0 → s.rspCnt ≠ s.reqN → s.cnt < s.cfg.P → ∃ m : Memory 8,
      exec (.accStore d) s = .next { s with rspCnt := s.rspCnt + 1, cnt := s.cnt + 1, pbuf := m } ∧
      Memory.read m s.cnt = some d ∧ ∀ j, j ≠ s.cnt → Memory.read m j = Memory.read s.pbuf j)

/-- 42_accumulator.md R141 with 40_source_port.md R103: ACC_END clears the request and goes to DECODING exactly when the
payload is complete, where settle runs DECODE; else settle asks for the rest. With no request outstanding it is
F_NO_REQUEST. -/
def Obligations.AccEndDecodesACompletePayload : Prop :=
  (∀ s : State, s.fault = .none → s.st = .accumulating →
    s.selects 0x100#12 = .accEnd ∧
    exec .accEnd s = .next
      (if s.reqN = 0 then { s with fault := .noRequest, outs := s.outs ++ [.fault .noRequest] }
       else if s.cnt = s.cfg.P then { s with reqN := 0, rspCnt := 0, st := .decoding }
       else { s with reqN := 0, rspCnt := 0 })) ∧
  (∀ s : State, s.fault = .none → s.st = .accumulating → s.reqN ≠ 0 → s.cnt = s.cfg.P →
    Answer.andThen (exec .accEnd s) settle = exec .decode { s with reqN := 0, rspCnt := 0, st := .decoding }) ∧
  (∀ s : State, s.fault = .none → s.st = .accumulating → s.reqN ≠ 0 → s.cnt ≠ s.cfg.P →
    Answer.andThen (exec .accEnd s) settle =
      .next { s with reqN := s.cfg.P - s.cnt, rspCnt := 0, outs := s.outs ++ [.rdReq (s.cfg.P - s.cnt)] })

/-- 42_accumulator.md R142 and 60_exceptions.md R223: a short or empty read has one effect, the next request, for the
remaining count. -/
def Obligations.ShortReadOnlyAsksForTheRest : Prop :=
  ∀ (s : State) (rest : List Input), s.cfg.legal = true → s.fault = .none → s.st = .accumulating → s.reqN ≠ 0 →
    s.cnt < s.cfg.P → s.inputs = .event 0x100#12 :: rest →
    step s = .next { s with reqN := s.cfg.P - s.cnt, rspCnt := 0, inputs := rest,
                            outs := s.outs ++ [.rdReq (s.cfg.P - s.cnt)] }

/-! ## The unpacker -/

/-- 43_unpacker.md R160: FIELD, as an operation of the table; where its result goes is the model's choice (log
entry 5). -/
def Obligations.FieldSelectsTheBitPair : Prop :=
  ∀ (s : State) (b : Byte) (k : BitVec 2), ∃ x : Sample,
    exec (.field b k) s = .next { s with fnOut := .sample x } ∧
    x.toNat = (b.toNat >>> (6 - 2 * k.toNat)) % 4

/-- 43_unpacker.md R161: UNPACK gives the four fields in order, most significant pair first (log entry 5 for where). -/
def Obligations.UnpackGivesTheFourFields : Prop :=
  ∀ (s : State) (b : Byte), ∃ x0 x1 x2 x3 : Sample,
    exec (.unpack b) s = .next { s with fnOut := .samples [x0, x1, x2, x3] } ∧
    b = x0 ++ x1 ++ x2 ++ x3

/-- 43_unpacker.md R165 and R166: LUM and RGB (log entry 5 for where their results go). -/
def Obligations.LumAndRgbAreEightyFiveTimesTheSample : Prop :=
  ∀ (s : State) (x : Sample), ∃ l : Byte,
    l.toNat = 85 * x.toNat ∧
    exec (.lum x) s = .next { s with fnOut := .level l } ∧
    exec (.rgb x) s = .next { s with fnOut := .triple { red := l, green := l, blue := l } }

/-- 43_unpacker.md R162: DECODE writes every raster entry from its field of the payload, emits FRAME with the raster,
and goes to PRESENTING; nothing else changes. An unwritten payload entry raises F_UNWRITTEN instead (60_exceptions.md
R227), and that nothing is written first is read from R228 (log entry 9). -/
def Obligations.DecodeUnpacksTheWholePayload : Prop :=
  (∀ s : State, s.enabledOperation = some .decode ↔ s.fault = .none ∧ s.st = .decoding) ∧
  (∀ s : State, s.cfg.legal = true → s.fault = .none → s.st = .decoding →
    (∀ j, j < s.cfg.P → (Memory.read s.pbuf j).isSome) →
    ∃ (r : List Sample) (m : Memory 2),
      exec .decode s = .next { s with raster := m, st := .presenting, outs := s.outs ++ [.frame r] } ∧
      r.length = s.cfg.N ∧ Memory.wf s.cfg.N m = true ∧
      ∀ i, i < s.cfg.N → ∃ b, Memory.read s.pbuf (i / 4) = some b ∧
        Memory.read m i = some (fieldOf b (BitVec.ofNat 2 (i % 4))) ∧
        r[i]? = some (fieldOf b (BitVec.ofNat 2 (i % 4)))) ∧
  (∀ s : State, s.fault = .none → s.st = .decoding →
    (∃ j, j < s.cfg.P ∧ Memory.read s.pbuf j = none) →
    exec .decode s = .next { s with fault := .unwritten, outs := s.outs ++ [.fault .unwritten] })

/-- 43_unpacker.md R168: PACK, the round trips of PACK and UNPACK, and a grid of samples that, packed four to a byte and
decoded, comes back. -/
def Obligations.PackedFrameDecodesToItself : Prop :=
  (∀ s0 s1 s2 s3 : Sample,
    (packSamples s0 s1 s2 s3).toNat = s0.toNat * 64 + s1.toNat * 16 + s2.toNat * 4 + s3.toNat ∧
    unpackByte (packSamples s0 s1 s2 s3) = [s0, s1, s2, s3]) ∧
  (∀ b : Byte, ∃ s0 s1 s2 s3 : Sample, unpackByte b = [s0, s1, s2, s3] ∧ packSamples s0 s1 s2 s3 = b) ∧
  (∀ (s : State) (x : List Sample), s.cfg.legal = true → s.fault = .none → s.st = .decoding →
    x.length = s.cfg.N →
    (∀ j, j < s.cfg.P → ∃ s0 s1 s2 s3 : Sample,
      x[4 * j]? = some s0 ∧ x[4 * j + 1]? = some s1 ∧ x[4 * j + 2]? = some s2 ∧ x[4 * j + 3]? = some s3 ∧
      Memory.read s.pbuf j = some (packSamples s0 s1 s2 s3)) →
    ∃ m : Memory 2,
      exec .decode s = .next { s with raster := m, st := .presenting, outs := s.outs ++ [.frame x] } ∧
      ∀ i, i < s.cfg.N → Memory.read m i = x[i]?)

/-- 43_unpacker.md R163 and R164: while the frame is presented, the pixel at row `r`, column `c` is field
`(r*W + c) mod 4` of payload byte `(r*W + c) div 4`; the index maps name each sample's one row and column. -/
def Obligations.PixelComesFromItsPayloadField : Prop :=
  (∀ (s : State) (r c : Nat), Inv s → s.fault = .none → s.st = .presenting → r < s.cfg.H → c < s.cfg.W →
    ∃ b, Memory.read s.pbuf ((r * s.cfg.W + c) / 4) = some b ∧
      s.framePixel r c = some (fieldOf b (BitVec.ofNat 2 ((r * s.cfg.W + c) % 4)))) ∧
  (∀ (cfg : Config) (r c : Nat), r < cfg.H → c < cfg.W →
    pixelIndex cfg r c < cfg.N ∧ pixelRow cfg (pixelIndex cfg r c) = r ∧ pixelColumn cfg (pixelIndex cfg r c) = c)

/-- 10_state.md R30 and 43_unpacker.md R167: the frame port carries the raster, its luminance and its grey triple in
PRESENTING, and no value elsewhere (log entry 13). -/
def Obligations.FramePortShowsTheRasterWhilePresenting : Prop :=
  (∀ (s : State) (i : Nat) (x : Sample), s.st = .presenting → i < s.cfg.N → Memory.read s.raster i = some x →
    s.frameValid = true ∧ s.frameSample i = some x ∧ s.frameLum i = some (lumOf x) ∧
    s.frameRgb i = some { red := lumOf x, green := lumOf x, blue := lumOf x }) ∧
  (∀ (s : State) (i : Nat), s.st ≠ .presenting →
    s.frameValid = false ∧ s.frameSample i = none ∧ s.frameLum i = none ∧ s.frameRgb i = none)

/-! ## Control -/

/-- 44_control.md R192 and R195, R197: START is the first loop top, after which settle asks for one byte, and
F_BAD_START outside IDLE. -/
def Obligations.StartIsTheFirstLoopTop : Prop :=
  (∀ s : State, s.fault = .none → s.st = .idle → s.selects 0x300#12 = .start) ∧
  (∀ s : State, s.fault = .none → s.st = .idle → s.stopPend = false →
    exec .start s = .next { s with st := .syncing } ∧
    (s.reqN = 0 → Answer.andThen (exec .start s) settle =
      .next { s with st := .syncing, reqN := 1, rspCnt := 0, outs := s.outs ++ [.rdReq 1] })) ∧
  (∀ s : State, s.fault = .none → s.st = .idle → s.stopPend = true →
    exec .start s = .next { s with st := .shutdown, exit := .stopped, reqN := 0, rspCnt := 0,
                                   outs := s.outs ++ [.release .stopped] }) ∧
  (∀ s : State, s.fault = .none → s.st ≠ .shutdown → s.st ≠ .idle →
    exec .start s = .next { s with fault := .badStart, outs := s.outs ++ [.fault .badStart] })

/-- 44_control.md R194: STOP is latched with LOOP_TOP, and shuts down at once with ANY_STEP. -/
def Obligations.StopIsLatchedOrActedOnAtOnce : Prop :=
  (∀ s : State, s.fault = .none → s.st ≠ .shutdown → s.selects 0x400#12 = .stop) ∧
  (∀ s : State, s.fault = .none → s.st ≠ .shutdown → s.cfg.stopSampling = .loopTop →
    exec .stop s = .next { s with stopPend := true }) ∧
  (∀ s : State, s.fault = .none → s.st ≠ .shutdown → s.cfg.stopSampling = .anyStep →
    exec .stop s = .next { s with st := .shutdown, exit := .stopped, reqN := 0, rspCnt := 0,
                                  outs := s.outs ++ [.release .stopped] })

/-- 44_control.md R193 and R197: OPEN_FAIL shuts down in IDLE, a latched stop ignored, and is F_BAD_OPEN_FAIL
elsewhere. -/
def Obligations.OpenFailShutsDownBeforeAnyScan : Prop :=
  (∀ s : State, s.fault = .none → s.st = .idle → s.selects 0x500#12 = .openFail) ∧
  (∀ s : State, s.fault = .none → s.st = .idle →
    exec .openFail s = .next { s with st := .shutdown, exit := .sourceUnavailable, reqN := 0, rspCnt := 0,
                                      outs := s.outs ++ [.release .sourceUnavailable] }) ∧
  (∀ s : State, s.fault = .none → s.st ≠ .shutdown → s.st ≠ .idle →
    exec .openFail s = .next { s with fault := .badOpenFail, outs := s.outs ++ [.fault .badOpenFail] })

/-- 44_control.md R196 and R195, R197: SINK_ACK is the next loop top, after which settle asks for one byte, and F_BAD_ACK
outside PRESENTING. -/
def Obligations.SinkAckIsTheNextLoopTop : Prop :=
  (∀ s : State, s.fault = .none → s.st = .presenting → s.selects 0x600#12 = .sinkAck) ∧
  (∀ s : State, s.fault = .none → s.st = .presenting → s.stopPend = false →
    exec .sinkAck s = .next { s with st := .syncing } ∧
    (s.reqN = 0 → Answer.andThen (exec .sinkAck s) settle =
      .next { s with st := .syncing, reqN := 1, rspCnt := 0, outs := s.outs ++ [.rdReq 1] })) ∧
  (∀ s : State, s.fault = .none → s.st = .presenting → s.stopPend = true →
    exec .sinkAck s = .next { s with st := .shutdown, exit := .stopped, reqN := 0, rspCnt := 0,
                                     outs := s.outs ++ [.release .stopped] }) ∧
  (∀ s : State, s.fault = .none → s.st ≠ .shutdown → s.st ≠ .presenting →
    exec .sinkAck s = .next { s with fault := .badAck, outs := s.outs ++ [.fault .badAck] })

/-- 44_control.md R195: LOOP_TOP, where START and SINK_ACK call it. -/
def Obligations.LoopTopPollsTheStop : Prop :=
  ∀ s : State, s.fault = .none → (s.st = .idle ∨ s.st = .presenting) →
    exec .loopTop s = .next
      (if s.stopPend then { s with st := .shutdown, exit := .stopped, reqN := 0, rspCnt := 0,
                                   outs := s.outs ++ [.release .stopped] }
       else { s with st := .syncing })

/-- 44_control.md R197: the three misplaced control events: the rows their words select, their faults, and that all
three are ignored in SHUTDOWN. -/
def Obligations.MisplacedControlEventsFault : Prop :=
  (∀ s : State, s.fault = .none → s.st ≠ .shutdown → s.st ≠ .idle →
    s.selects 0x300#12 = .startMisplaced ∧
    exec .startMisplaced s = .next { s with fault := .badStart, outs := s.outs ++ [.fault .badStart] }) ∧
  (∀ s : State, s.fault = .none → s.st ≠ .shutdown → s.st ≠ .idle →
    s.selects 0x500#12 = .openFailMisplaced ∧
    exec .openFailMisplaced s = .next { s with fault := .badOpenFail, outs := s.outs ++ [.fault .badOpenFail] }) ∧
  (∀ s : State, s.fault = .none → s.st ≠ .shutdown → s.st ≠ .presenting →
    s.selects 0x600#12 = .sinkAckMisplaced ∧
    exec .sinkAckMisplaced s = .next { s with fault := .badAck, outs := s.outs ++ [.fault .badAck] }) ∧
  (∀ s : State, s.st = .shutdown →
    exec (s.selects 0x300#12) s = .next s ∧ exec (s.selects 0x500#12) s = .next s ∧
    exec (s.selects 0x600#12) s = .next s)

/-- 44_control.md R192, its example, from the reset state of any legal configuration: START leaves the block scanning
with one byte requested. -/
def Obligations.StartAfterResetRequestsOneByte : Prop :=
  ∀ (cfg : Config) (rest : List Input), cfg.legal = true →
    step { State.resetWith cfg with inputs := .event 0x300#12 :: rest } =
      .next { State.resetWith cfg with st := .syncing, reqN := 1, inputs := rest, outs := [.rdReq 1] }

/-! ## Reserved words, and blocks that take no event -/

/-- 30_encoding.md R78: the three rows of reserved words raise F_ILLEGAL_EVENT. -/
def Obligations.ReservedRowsRaiseIllegalEvent : Prop :=
  (∀ (s : State) (data : Byte), s.fault = .none → s.st ≠ .shutdown →
    exec (.illegalKind7 data) s =
      .next { s with fault := .illegalEvent, outs := s.outs ++ [.fault .illegalEvent] }) ∧
  (∀ (s : State) (low : BitVec 3) (data : Byte), s.fault = .none → s.st ≠ .shutdown →
    exec (.illegalKind8F low data) s =
      .next { s with fault := .illegalEvent, outs := s.outs ++ [.fault .illegalEvent] }) ∧
  (∀ (s : State) (kind : BitVec 4) (data : Byte), s.fault = .none → s.st ≠ .shutdown →
    1 ≤ kind.toNat → kind.toNat ≤ 6 → data ≠ 0#8 →
    exec (.illegalData kind data) s =
      .next { s with fault := .illegalEvent, outs := s.outs ++ [.fault .illegalEvent] })

/-- 30_encoding.md R78: in any state but SHUTDOWN, with no fault, exactly the words of a reserved kind or with data
where none belongs raise F_ILLEGAL_EVENT; 262 words are legal. -/
def Obligations.ExactlyIllegalWordsRaiseIllegalEvent : Prop :=
  (List.range 4096).countP (fun w => !illegalWord (BitVec.ofNat 12 w)) = 262 ∧
  ∀ (s : State) (e : EventWord) (rest : List Input), s.cfg.legal = true → s.fault = .none → s.st ≠ .shutdown →
    s.inputs = .event e :: rest →
    ((7 ≤ (e.extractLsb' 8 4).toNat ∨ ((e.extractLsb' 8 4).toNat ≠ 0 ∧ (e.extractLsb' 0 8).toNat ≠ 0)) →
      step s = .next { s with inputs := rest, fault := .illegalEvent, outs := s.outs ++ [.fault .illegalEvent] }) ∧
    (¬ (7 ≤ (e.extractLsb' 8 4).toNat ∨ ((e.extractLsb' 8 4).toNat ≠ 0 ∧ (e.extractLsb' 0 8).toNat ≠ 0)) →
      ∀ t, step s = .next t → t.fault ≠ .illegalEvent)

/-- 60_exceptions.md R226 and R229: in SHUTDOWN, and while a fault is recorded, every event operation leaves the state
as it is and emits nothing, SHUTDOWN_IGNORE among them. -/
def Obligations.IgnoredEventsChangeNothing : Prop :=
  ∀ (i : Instr) (s : State), isEventOperation i = true → (s.st = .shutdown ∨ s.fault ≠ .none) →
    exec i s = .next s

/-- 60_exceptions.md R226 and R229: only a reset leaves SHUTDOWN or a fault; any number of events, as many as the host
delivers, changes nothing and emits nothing. -/
def Obligations.OnlyResetLeavesShutdownOrAFault : Prop :=
  ∀ (n : Nat) (s : State), s.cfg.legal = true → (s.st = .shutdown ∨ s.fault ≠ .none) →
    (∀ x, x ∈ s.inputs → x ≠ .reset) → n ≤ s.inputs.length →
    Host.Core.run core n s = .next { s with inputs := s.inputs.drop n }

/-! ## What operations leave alone, over all operations -/

/-- 20_memory.md R51: no operation but ACC_STORE writes `pbuf`, and ACC_STORE writes only entry `cnt`. -/
def Obligations.PbufIsWrittenOnlyByAccStore : Prop :=
  ∀ (i : Instr) (s t : State), exec i s = .next t →
    ((∀ d, i ≠ .accStore d) → t.pbuf = s.pbuf) ∧
    (∀ d, i = .accStore d → ∀ j, j ≠ s.cnt → Memory.read t.pbuf j = Memory.read s.pbuf j)

/-- 20_memory.md R52 and 10_state.md R29: no operation but DECODE writes `raster`. -/
def Obligations.RasterIsWrittenOnlyByDecode : Prop :=
  ∀ (i : Instr) (s t : State), exec i s = .next t → i ≠ .decode →
    ∀ j, Memory.read t.raster j = Memory.read s.raster j

/-- 10_state.md R22: `cnt` is set to 0 by SYNC_HIT, counted up by one by ACC_STORE, and written by no other
operation. -/
def Obligations.CountIsWrittenOnlyBySyncHitAndAccStore : Prop :=
  ∀ (i : Instr) (s t : State), exec i s = .next t → t.cnt ≠ s.cnt →
    (i = .syncHit ∧ t.cnt = 0) ∨ (∃ d, i = .accStore d ∧ t.cnt = s.cnt + 1)

/-- 10_state.md R23 and R24: the rows that write `req_n` and `rsp_cnt`, and what each writes: ISSUE (R100), a data beat
(R102), the end of a response (R103), and a row that enters SHUTDOWN (R225). -/
def Obligations.RequestRegistersWrittenOnlyByTheirRules : Prop :=
  ∀ (i : Instr) (s t : State), exec i s = .next t → (t.reqN ≠ s.reqN ∨ t.rspCnt ≠ s.rspCnt) →
    (i = .issue ∧ t.reqN = (if s.st = .syncing then 1 else s.cfg.P - s.cnt) ∧ t.rspCnt = 0) ∨
    (((∃ d, i = .syncDiscard d) ∨ i = .syncHit ∨ (∃ d, i = .accStore d) ∨ ∃ d, i = .rdDataCheck d) ∧
      t.reqN = s.reqN ∧ s.reqN ≠ 0 ∧ s.rspCnt ≠ s.reqN ∧ t.rspCnt = s.rspCnt + 1) ∨
    ((i = .syncEnd ∨ i = .accEnd ∨ i = .rdEndCheck) ∧ s.reqN ≠ 0 ∧ t.reqN = 0 ∧ t.rspCnt = 0) ∨
    ((i = .srcClosed ∨ i = .start ∨ i = .stop ∨ i = .openFail ∨ i = .sinkAck ∨ i = .loopTop) ∧
      s.st ≠ .shutdown ∧ t.st = .shutdown ∧ t.reqN = 0 ∧ t.rspCnt = 0)

/-- 10_state.md R25: `stop_pend` is set only by STOP with LOOP_TOP, and no operation clears it. -/
def Obligations.StopPendIsSetOnlyByStop : Prop :=
  ∀ (i : Instr) (s t : State), exec i s = .next t →
    (s.stopPend = true → t.stopPend = true) ∧
    (t.stopPend ≠ s.stopPend → i = .stop ∧ s.cfg.stopSampling = .loopTop)

/-- 10_state.md R26 and 60_exceptions.md R225, R233: `exit` is written only on entry to SHUTDOWN, with RELEASE of the
same code; in SHUTDOWN no operation changes it. -/
def Obligations.ExitIsWrittenOnlyOnShutdownEntry : Prop :=
  ∀ (i : Instr) (s t : State), exec i s = .next t →
    (t.exit ≠ s.exit → s.st ≠ .shutdown ∧ t.st = .shutdown ∧ t.outs = s.outs ++ [.release t.exit]) ∧
    (s.st = .shutdown → t.exit = s.exit ∧ t.st = .shutdown)

/-- 10_state.md R27 and 60_exceptions.md R229: a recorded fault is never overwritten by an operation, and the operation
that records one emits it. -/
def Obligations.FaultIsStickyUnderEveryOperation : Prop :=
  ∀ (i : Instr) (s t : State), exec i s = .next t →
    (s.fault ≠ .none → t.fault = s.fault) ∧
    (t.fault ≠ s.fault → s.fault = .none ∧ t.outs = s.outs ++ [.fault t.fault])

/-- 00_scope.md R4 and R9, 10_state.md R20: no operation changes the configuration or the host's inputs; an operation
only appends to the output trace, at most one output; only a pure function writes `fnOut`, and it writes nothing else
(log entry 5). -/
def Obligations.OperationsKeepConfigurationInputsAndTrace : Prop :=
  ∀ (i : Instr) (s t : State), exec i s = .next t →
    t.cfg = s.cfg ∧ t.inputs = s.inputs ∧ (t.outs = s.outs ∨ ∃ o, t.outs = s.outs ++ [o]) ∧
    (t.fnOut ≠ s.fnOut → t = { s with fnOut := t.fnOut } ∧
      ((∃ b k, i = .field b k) ∨ (∃ b, i = .unpack b) ∨ (∃ x, i = .lum x) ∨ ∃ x, i = .rgb x))

/-- 41_synchronizer.md R124 and 42_accumulator.md R145: in ACCUMULATING a byte's value is not looked at; two bytes lead
to states that differ at most in the entry stored. -/
def Obligations.AccumulatorIsBlindToContent : Prop :=
  ∀ (s t : State) (d d' : Byte), s.st = .accumulating → exec (.accStore d) s = .next t →
    ∃ t', exec (.accStore d') s = .next t' ∧ t' = { t with pbuf := t'.pbuf } ∧
      (∀ j, j ≠ s.cnt → Memory.read t'.pbuf j = Memory.read t.pbuf j) ∧
      s.selects (eventWord 0#4 d) = (if s.ignoresEvents then .shutdownIgnore 0#4 d else .accStore d)

/-! ## Where operations run, and that every step completes -/

/-- The model's choice (log entry 6): an operation of the table answers a next state exactly where the spec gives its
row an effect, and is refused by name elsewhere. -/
def Obligations.OperationsCompleteExactlyWhereApplicable : Prop :=
  ∀ (i : Instr) (s : State),
    (applicable i s = true → ∃ t, exec i s = .next t) ∧
    (applicable i s = false → exec i s = .refused .notApplicable)

/-- 30_encoding.md R77 and 44_control.md R190, R191: in every state, under a legal configuration, every event word, a
reset and an empty input are taken: no step of the machine stops. With no input there the block waits and all state
survives (60_exceptions.md R241; log entry 2). -/
def Obligations.EveryStepUnderALegalConfigurationCompletes : Prop :=
  ∀ s : State, s.cfg.legal = true →
    (∀ e : EventWord, ∃ t, exec (s.selects e) s = .next t) ∧ (∃ t, step s = .next t) ∧
    (s.inputs = [] → step s = .next s)

/-- 44_control.md R191: after settle no internal operation is enabled. The premise leaves out only ISSUE with `cnt = P`,
which never runs (40_source_port.md R100). -/
def Obligations.SettleLeavesNoInternalOperationEnabled : Prop :=
  ∀ s t : State, (s.st = .accumulating → s.reqN = 0 → s.cnt < s.cfg.P) → settle s = .next t →
    t.enabledOperation = none

/-! ## Encoding -/

/-- 30_encoding.md R73 to R78: an operation in the cell of R77 it stands in is what its own word decodes to there, with
every operand. -/
def Obligations.EncodedOperationDecodesToItself : Prop :=
  ∀ (S : Byte) (st : Lifecycle) (halted : Bool) (i : Instr) (e : EventWord),
    wellFormed S i = true → selectedIn st halted i = true → encode S i = some e →
    decodeEvent S st halted e = i

/-- 30_encoding.md R77: in every state every one of the 4096 words selects an operation that is well formed, stands in
the cell of R77 for that state, and encodes back to the very word. -/
def Obligations.EveryWordSelectsTheRowItEncodes : Prop :=
  ∀ (S : Byte) (st : Lifecycle) (halted : Bool) (e : EventWord),
    wellFormed S (decodeEvent S st halted e) = true ∧
    selectedIn st halted (decodeEvent S st halted e) = true ∧
    encode S (decodeEvent S st halted e) = some e

/-! ## Outputs -/

/-- 10_state.md R36: the status word's fields, with the codes of R21, R26 and R27; the count words, which show the counts
exactly while they lie in `0..P` (R6); and all of them at reset. -/
def Obligations.StatusWordShowsTheRegisters : Prop :=
  (∀ s : State,
    s.status.extractLsb' 0 3 =
      (match s.st with
        | .idle => 0#3 | .syncing => 1#3 | .accumulating => 2#3 | .decoding => 3#3 | .presenting => 4#3
        | .shutdown => 5#3) ∧
    s.status.extractLsb' 3 1 = BitVec.ofBool s.stopPend ∧
    s.status.extractLsb' 4 2 =
      (match s.exit with
        | .none => 0#2 | .stopped => 1#2 | .sourceClosed => 2#2 | .sourceUnavailable => 3#2) ∧
    s.status.extractLsb' 6 3 =
      (match s.fault with
        | .none => 0#3 | .illegalEvent => 1#3 | .noRequest => 2#3 | .overlong => 3#3 | .badStart => 4#3
        | .badOpenFail => 5#3 | .badAck => 6#3 | .unwritten => 7#3) ∧
    s.status.extractLsb' 9 1 = BitVec.ofBool (decide (s.st = .presenting)) ∧
    s.status.extractLsb' 10 1 = BitVec.ofBool (decide (s.st = .shutdown) || decide (s.fault ≠ .none))) ∧
  (∀ s : State, Inv s → s.countWord.toNat = s.cnt ∧ s.requestWord.toNat = s.reqN ∧ s.receivedWord.toNat = s.rspCnt) ∧
  (∀ cfg : Config, (State.resetWith cfg).status = 0#11 ∧ (State.resetWith cfg).countWord.toNat = 0 ∧
    (State.resetWith cfg).requestWord.toNat = 0 ∧ (State.resetWith cfg).receivedWord.toNat = 0)

/-- 43_unpacker.md R167 and 70_reset_and_hazards.md R266: the frame port keeps its values for the whole of
PRESENTING. -/
def Obligations.FramePortIsStableWhilePresenting : Prop :=
  ∀ s t : State, s.st = .presenting → t.st = .presenting → step s = .next t →
    ∀ i, t.frameSample i = s.frameSample i ∧ t.frameLum i = s.frameLum i ∧ t.frameRgb i = s.frameRgb i

/-! ## Rules of the whole machine -/

/-- 10_state.md R34 (and R6, R25, R58 beside it): the invariant between two events is kept by every step. Item 4
is read as a fact of the state (log entry 16). -/
def Obligations.InvariantIsKeptByEveryStep : Prop :=
  ∀ s t : State, Inv s → step s = .next t → Inv t

/-- 10_state.md R34 at reset: the invariant holds after reset, under every legal configuration. -/
def Obligations.InvariantHoldsAfterReset : Prop :=
  (∀ cfg : Config, cfg.legal = true → Inv (State.resetWith cfg)) ∧ Inv State.reset

/-- 40_source_port.md R101, 44_control.md R199 and 30_encoding.md R78: between two events of a run, an event raises a
fault exactly when the host breaks its contract by delivering it; `hostDuty` is the model's reading of the duties (log
entry 18). -/
def Obligations.EventFaultsExactlyWhenTheHostBreaksItsContract : Prop :=
  ∀ (s t : State) (e : EventWord) (rest : List Input), Inv s → s.fault = .none → s.st ≠ .shutdown →
    s.inputs = .event e :: rest → step s = .next t → (t.fault = .none ↔ hostDuty s e = true)

/-- 60_exceptions.md R227 and 10_state.md R35: F_UNWRITTEN is never raised in a state that meets the invariant. -/
def Obligations.UnwrittenFaultIsNeverRaised : Prop :=
  ∀ s t : State, Inv s → s.fault ≠ .unwritten → step s = .next t → t.fault ≠ .unwritten

/-- 44_control.md R198: between two events the lifecycle moves only along its order, and is never in DECODING; a
faulted block stays where it was. -/
def Obligations.LifecycleMovesInOrder : Prop :=
  ∀ (s t : State) (e : EventWord) (rest : List Input), Inv s → s.fault = .none → s.inputs = .event e :: rest →
    step s = .next t → lifecycleMove s.st t.st = true ∧ t.st ≠ .decoding

/-- 42_accumulator.md R143 and 20_memory.md R59: if a FRAME is among the outputs a step appends, the step takes the RD_END
that ends a complete payload, the FRAME carries that payload's samples, it is the one output appended, and the block is
then presenting it. -/
def Obligations.FrameComesOnlyFromACompletePayload : Prop :=
  ∀ (s t : State) (emitted : List Output) (r : List Sample), Inv s → step s = .next t →
    t.outs = s.outs ++ emitted → .frame r ∈ emitted →
    (∃ rest, s.inputs = .event 0x100#12 :: rest) ∧ s.st = .accumulating ∧ s.cnt = s.cfg.P ∧
    emitted = [.frame r] ∧ t.st = .presenting ∧ r.length = s.cfg.N ∧
    ∀ i, i < s.cfg.N → ∃ b, Memory.read s.pbuf (i / 4) = some b ∧
      r[i]? = some (fieldOf b (BitVec.ofNat 2 (i % 4)))

/-- 60_exceptions.md R232, its orders: with LOOP_TOP a stop, then a closure, while a request is outstanding; a closure,
then a stop; with ANY_STEP a stop, then a closure; a stop, then an acknowledgement, in PRESENTING. -/
def Obligations.StopAndClosureInEitherOrder : Prop :=
  (∀ (s : State) (rest : List Input), Inv s → s.fault = .none → s.reqN ≠ 0 →
    s.cfg.stopSampling = .loopTop → s.inputs = [.event 0x400#12, .event 0x200#12] ++ rest →
    Host.Core.run core 2 s = .next
      { s with inputs := rest, stopPend := true, st := .shutdown, exit := .sourceClosed, reqN := 0, rspCnt := 0,
               outs := s.outs ++ [.release .sourceClosed] }) ∧
  (∀ (s : State) (rest : List Input), Inv s → s.fault = .none → s.reqN ≠ 0 →
    s.inputs = [.event 0x200#12, .event 0x400#12] ++ rest →
    Host.Core.run core 2 s = .next
      { s with inputs := rest, st := .shutdown, exit := .sourceClosed, reqN := 0, rspCnt := 0,
               outs := s.outs ++ [.release .sourceClosed] }) ∧
  (∀ (s : State) (rest : List Input), Inv s → s.fault = .none → s.reqN ≠ 0 →
    s.cfg.stopSampling = .anyStep → s.inputs = [.event 0x400#12, .event 0x200#12] ++ rest →
    Host.Core.run core 2 s = .next
      { s with inputs := rest, st := .shutdown, exit := .stopped, reqN := 0, rspCnt := 0,
               outs := s.outs ++ [.release .stopped] }) ∧
  (∀ (s : State) (rest : List Input), Inv s → s.fault = .none → s.st = .presenting →
    s.cfg.stopSampling = .loopTop → s.inputs = [.event 0x400#12, .event 0x600#12] ++ rest →
    Host.Core.run core 2 s = .next
      { s with inputs := rest, stopPend := true, st := .shutdown, exit := .stopped, reqN := 0, rspCnt := 0,
               outs := s.outs ++ [.release .stopped] })

/-- 40_source_port.md R105 and 20_memory.md R59: however the source splits a payload into responses, empty ones among
them, the whole state at the end is fixed by the payload: the buffer holds its bytes in order and nothing else, the
raster its samples and nothing else, `cnt = P`, and the FRAME is the payload's. The split shows only in the requests,
each for the deficit its response leaves. `chunks` are the responses before the last, `last` the one that completes the
payload; the state is the one right after the first request for the payload. -/
def Obligations.PayloadIsIndependentOfItsSplitIntoResponses : Prop :=
  ∀ (s : State) (chunks : List (List Byte)) (last : List Byte) (rest : List Input),
    Inv s → s.fault = .none → s.st = .accumulating → s.cnt = 0 → s.rspCnt = 0 → s.reqN = s.cfg.P →
    (chunks.flatten ++ last).length = s.cfg.P → chunks.flatten.length < s.cfg.P →
    s.inputs = responsesInputs (chunks ++ [last]) ++ rest →
    ∃ (reqs : List Nat) (m : Memory 8) (g : Memory 2),
      Host.Core.run core (responsesInputs (chunks ++ [last])).length s =
        .next { s with st := .presenting, cnt := s.cfg.P, reqN := 0, rspCnt := 0, pbuf := m, raster := g,
                       inputs := rest,
                       outs := s.outs ++ reqs.map Output.rdReq ++
                         [.frame (unpackPayload (chunks.flatten ++ last))] } ∧
      Memory.wf s.cfg.P m = true ∧ Memory.wf s.cfg.N g = true ∧
      (∀ j, Memory.read m j = (chunks.flatten ++ last)[j]?) ∧
      (∀ i, Memory.read g i = (unpackPayload (chunks.flatten ++ last))[i]?) ∧
      reqs.length = chunks.length ∧
      ∀ k, k < chunks.length → reqs[k]? = some (s.cfg.P - (chunks.take (k + 1)).flatten.length)

/-- 41_synchronizer.md R123: whatever the responses while scanning, empty or of one byte, none of them the sentinel,
their bytes are dropped with nothing stored; the first sentinel starts a frame at `cnt = 0`. -/
def Obligations.ScanSkipsExactlyTheGarbagePrefix : Prop :=
  ∀ (s : State) (chunks : List (List Byte)) (rest : List Input),
    s.cfg.legal = true → s.fault = .none → s.st = .syncing → s.reqN = 1 → s.rspCnt = 0 →
    (∀ c, c ∈ chunks → c.length ≤ 1 ∧ s.cfg.S ∉ c) →
    s.inputs = responsesInputs chunks ++ .event (dataWord s.cfg.S) :: rest →
    Host.Core.run core ((responsesInputs chunks).length + 1) s =
      .next { s with inputs := rest, st := .accumulating, cnt := 0, rspCnt := 1,
                     outs := s.outs ++ List.replicate chunks.length (.rdReq 1) }

/-- 20_memory.md R62: from a scan on, neither what the block emits, nor any register but `cnt`, nor the frame port depends
on what `pbuf`, `raster` and `cnt` held before: no value of an earlier frame reaches a later one. `cnt` itself, and with
it the count word of 10_state.md R36, still shows an earlier frame's count while scanning and after (44_control.md R195),
but no longer once a sentinel is matched: not in ACCUMULATING, nor in PRESENTING. The frame port carries the raster in
PRESENTING (R30, 43_unpacker.md R167); elsewhere, where the spec calls it not defined and `raster` keeps an earlier frame
(R29), the clause about it rests on the model's choice that its view gives no value there (log entry 13). -/
def Obligations.EarlierFramesCannotBeSeenInLaterOutputs : Prop :=
  ∀ (n : Nat) (s s' t t' : State), Inv s → Inv s' → s.st = .syncing →
    s' = { s with pbuf := s'.pbuf, raster := s'.raster, cnt := s'.cnt } →
    Host.Core.run core n s = .next t → Host.Core.run core n s' = .next t' →
    t' = { t with pbuf := t'.pbuf, raster := t'.raster, cnt := t'.cnt } ∧ t'.status = t.status ∧
    (t.st = .accumulating ∨ t.st = .presenting → t'.cnt = t.cnt) ∧
    ∀ i, t'.frameSample i = t.frameSample i ∧ t'.frameLum i = t.frameLum i ∧ t'.frameRgb i = t.frameRgb i
end

