-- ==== Sys2Proof/Laws/PerInstr.lean ====
section
/-! SUPPORT. One statement about every operation as syntax: the word of a well-formed operation matches the operation's
row of spec/opcode_table.json. -/

namespace Sys2Proof.Laws

/-- The row of spec/opcode_table.json an operation's word must match, by the row's own match and mask (or, for
ILLEGAL_DATA, its ranges); with the sentinel `S` in general in SYNC_HIT's. Rows with no event word match none. -/
def tableRowHolds (S : Byte) (i : Instr) (e : EventWord) : Bool :=
  match i with
  | .syncDiscard _ | .accStore _ | .rdDataCheck _ => decide (e &&& 0xF00#12 = 0x000#12)
  | .syncHit => decide (e &&& 0xFFF#12 = S.setWidth 12)
  | .syncEnd | .accEnd | .rdEndCheck => decide (e &&& 0xFFF#12 = 0x100#12)
  | .srcClosed => decide (e &&& 0xFFF#12 = 0x200#12)
  | .start | .startMisplaced => decide (e &&& 0xFFF#12 = 0x300#12)
  | .stop => decide (e &&& 0xFFF#12 = 0x400#12)
  | .openFail | .openFailMisplaced => decide (e &&& 0xFFF#12 = 0x500#12)
  | .sinkAck | .sinkAckMisplaced => decide (e &&& 0xFFF#12 = 0x600#12)
  | .illegalKind7 _ => decide (e &&& 0xF00#12 = 0x700#12)
  | .illegalKind8F _ _ => decide (e &&& 0x800#12 = 0x800#12)
  | .illegalData _ _ =>
    decide (0x100#12 ≤ e &&& 0xF00#12) && decide (e &&& 0xF00#12 ≤ 0x600#12) && decide (e &&& 0x0FF#12 ≠ 0#12)
  | .shutdownIgnore _ _ => decide (e &&& 0x000#12 = 0x000#12)
  | .issue | .decode | .loopTop => false
  | .field _ _ | .unpack _ | .lum _ | .rgb _ => false

/-- The word of the well-formed operation `i` matches its row of the opcode table, for every sentinel. -/
def MatchesTable.Statement (i : Instr) : Prop :=
  ∀ (S : Byte) (e : EventWord), wellFormed S i = true → encode S i = some e → tableRowHolds S i e = true

/-- The word of kind 0x0 with a data byte is that byte, widened (30_encoding.md R73). -/
theorem eventWord_zero (d : Byte) : eventWord 0#4 d = d.setWidth 12 := by
  revert d
  decide

theorem eventWord_getLsbD (kind : BitVec 4) (data : Byte) (i : Nat) :
    (eventWord kind data).getLsbD i = if i < 8 then data.getLsbD i else kind.getLsbD (i - 8) :=
  BitVec.getLsbD_append

theorem mask_kind_eventWord (kind : BitVec 4) (data : Byte) :
    eventWord kind data &&& 0xF00#12 = eventWord kind 0#8 := by
  apply BitVec.eq_of_getLsbD_eq
  intro i hi
  rw [BitVec.getLsbD_and, eventWord_getLsbD, eventWord_getLsbD]
  interval_cases i <;> simp

theorem mask_data_eventWord (kind : BitVec 4) (data : Byte) :
    eventWord kind data &&& 0x0FF#12 = eventWord 0#4 data := by
  apply BitVec.eq_of_getLsbD_eq
  intro i hi
  rw [BitVec.getLsbD_and, eventWord_getLsbD, eventWord_getLsbD]
  interval_cases i <;> simp

theorem MatchesTable.syncDiscard (d : Byte) : MatchesTable.Statement (.syncDiscard d) := by
  rintro S e - h
  cases h
  simpa [tableRowHolds, mask_kind_eventWord] using by decide

theorem MatchesTable.syncHit : MatchesTable.Statement .syncHit := by
  rintro S e - h
  cases h
  rw [eventWord_zero]
  revert S
  unfold tableRowHolds
  decide

theorem MatchesTable.accStore (d : Byte) : MatchesTable.Statement (.accStore d) := by
  rintro S e - h
  cases h
  simpa [tableRowHolds, mask_kind_eventWord] using by decide

theorem MatchesTable.rdDataCheck (d : Byte) : MatchesTable.Statement (.rdDataCheck d) := by
  rintro S e - h
  cases h
  simpa [tableRowHolds, mask_kind_eventWord] using by decide

theorem MatchesTable.syncEnd : MatchesTable.Statement .syncEnd := by
  rintro S e - h
  cases h
  rfl

theorem MatchesTable.accEnd : MatchesTable.Statement .accEnd := by
  rintro S e - h
  cases h
  rfl

theorem MatchesTable.rdEndCheck : MatchesTable.Statement .rdEndCheck := by
  rintro S e - h
  cases h
  rfl

theorem MatchesTable.srcClosed : MatchesTable.Statement .srcClosed := by
  rintro S e - h
  cases h
  rfl

theorem MatchesTable.start : MatchesTable.Statement .start := by
  rintro S e - h
  cases h
  rfl

theorem MatchesTable.stop : MatchesTable.Statement .stop := by
  rintro S e - h
  cases h
  rfl

theorem MatchesTable.openFail : MatchesTable.Statement .openFail := by
  rintro S e - h
  cases h
  rfl

theorem MatchesTable.sinkAck : MatchesTable.Statement .sinkAck := by
  rintro S e - h
  cases h
  rfl

theorem MatchesTable.startMisplaced : MatchesTable.Statement .startMisplaced := by
  rintro S e - h
  cases h
  rfl

theorem MatchesTable.openFailMisplaced : MatchesTable.Statement .openFailMisplaced := by
  rintro S e - h
  cases h
  rfl

theorem MatchesTable.sinkAckMisplaced : MatchesTable.Statement .sinkAckMisplaced := by
  rintro S e - h
  cases h
  rfl

theorem MatchesTable.illegalKind7 (data : Byte) : MatchesTable.Statement (.illegalKind7 data) := by
  rintro S e - h
  cases h
  simpa [tableRowHolds, mask_kind_eventWord] using by decide

theorem MatchesTable.illegalKind8F (low : BitVec 3) (data : Byte) :
    MatchesTable.Statement (.illegalKind8F low data) := by
  rintro S e - h
  cases h
  have hm : eventWord (1#1 ++ low) data &&& 0x800#12 = eventWord (1#1 ++ low) 0#8 &&& 0x800#12 := by
    rw [← mask_kind_eventWord (1#1 ++ low) data, BitVec.and_assoc]
    rfl
  have hl : ∀ low : BitVec 3, eventWord (1#1 ++ low) 0#8 &&& 0x800#12 = 0x800#12 := by decide
  exact decide_eq_true (hm.trans (hl low))

theorem MatchesTable.illegalData (kind : BitVec 4) (data : Byte) :
    MatchesTable.Statement (.illegalData kind data) := by
  rintro S e hw h
  cases h
  have hk : ∀ k : BitVec 4, 1 ≤ k.toNat → k.toNat ≤ 6 →
      0x100#12 ≤ eventWord k 0#8 ∧ eventWord k 0#8 ≤ 0x600#12 := by decide
  have hd : ∀ d : Byte, d ≠ 0#8 → eventWord 0#4 d ≠ 0#12 := by decide
  simp only [wellFormed, Bool.and_eq_true, decide_eq_true_eq] at hw
  simp only [tableRowHolds, mask_kind_eventWord, mask_data_eventWord, Bool.and_eq_true, decide_eq_true_eq]
  exact ⟨hk kind hw.1.1 hw.1.2, hd data hw.2⟩

theorem MatchesTable.shutdownIgnore (kind : BitVec 4) (data : Byte) :
    MatchesTable.Statement (.shutdownIgnore kind data) := by
  rintro S e - h
  cases h
  simp [tableRowHolds]

theorem MatchesTable.issue : MatchesTable.Statement .issue := by
  rintro S e - h
  cases h

theorem MatchesTable.decode : MatchesTable.Statement .decode := by
  rintro S e - h
  cases h

theorem MatchesTable.loopTop : MatchesTable.Statement .loopTop := by
  rintro S e - h
  cases h

theorem MatchesTable.field (b : Byte) (k : BitVec 2) : MatchesTable.Statement (.field b k) := by
  rintro S e - h
  cases h

theorem MatchesTable.unpack (b : Byte) : MatchesTable.Statement (.unpack b) := by
  rintro S e - h
  cases h

theorem MatchesTable.lum (x : Sample) : MatchesTable.Statement (.lum x) := by
  rintro S e - h
  cases h

theorem MatchesTable.rgb (x : Sample) : MatchesTable.Statement (.rgb x) := by
  rintro S e - h
  cases h

end Sys2Proof.Laws
end

