-- ==== Sys2Proof/Laws/Decode.lean ====
section
/-! SUPPORT. The laws of the event word and its decoder: a word is its kind and its data, the legal words are the
262 of 30_encoding.md R78, and what the decoder gives for each. -/

namespace Sys2Proof.Laws

theorem eventKind_getLsbD (e : EventWord) (i : Nat) :
    (eventKind e).getLsbD i = (decide (i < 4) && e.getLsbD (8 + i)) := by
  simp [eventKind, BitVec.getLsbD_extractLsb']

theorem eventData_getLsbD (e : EventWord) (i : Nat) :
    (eventData e).getLsbD i = (decide (i < 8) && e.getLsbD i) := by
  simp [eventData, BitVec.getLsbD_extractLsb']

/-- A word is its kind and its data (30_encoding.md R73). -/
@[simp] theorem eventWord_kind_data (e : EventWord) : eventWord (eventKind e) (eventData e) = e := by
  apply BitVec.eq_of_getLsbD_eq
  intro i hi
  rw [eventWord_getLsbD, eventKind_getLsbD, eventData_getLsbD]
  split
  · simp_all
  · rename_i h
    have h1 : i - 8 < 4 := by omega
    have h2 : 8 + (i - 8) = i := by omega
    simp [h1, h2]

@[simp] theorem eventKind_eventWord (kind : BitVec 4) (data : Byte) : eventKind (eventWord kind data) = kind := by
  apply BitVec.eq_of_getLsbD_eq
  intro i hi
  rw [eventKind_getLsbD, eventWord_getLsbD]
  simp [hi]

@[simp] theorem eventData_eventWord (kind : BitVec 4) (data : Byte) : eventData (eventWord kind data) = data := by
  apply BitVec.eq_of_getLsbD_eq
  intro i hi
  rw [eventData_getLsbD, eventWord_getLsbD]
  simp [hi]

/-- The legal words (30_encoding.md R78): a data word, or one of the six words of kinds 0x1..0x6 with data zero. -/
theorem legalWord_cases {e : EventWord} (h : illegalWord e = false) :
    (∃ d, e = eventWord 0#4 d) ∨ e = 0x100#12 ∨ e = 0x200#12 ∨ e = 0x300#12 ∨ e = 0x400#12 ∨ e = 0x500#12 ∨
      e = 0x600#12 := by
  have hk : ∀ k : BitVec 4, ¬ 7 ≤ k.toNat →
      k = 0#4 ∨ k = 1#4 ∨ k = 2#4 ∨ k = 3#4 ∨ k = 4#4 ∨ k = 5#4 ∨ k = 6#4 := by decide
  simp only [illegalWord, Bool.or_eq_false_iff, Bool.and_eq_false_iff, decide_eq_false_iff_not, not_not] at h
  rw [← eventWord_kind_data e]
  rcases hk _ h.1 with h0 | h0 | h0 | h0 | h0 | h0 | h0
  · exact .inl ⟨_, by rw [h0]⟩
  all_goals
    rcases h.2 with h2 | h2
    · rw [h0] at h2
      cases h2
    · rw [h0, h2]
      decide

theorem illegalWord_eventWord_zero (d : Byte) : illegalWord (eventWord 0#4 d) = false := by
  simp [illegalWord]

/-- In SHUTDOWN, and in a halted block, every word is ignored (R226, R229). -/
theorem decodeEvent_ignored {S : Byte} {st : Lifecycle} {halted : Bool} (e : EventWord)
    (h : halted = true ∨ st = .shutdown) :
    decodeEvent S st halted e = .shutdownIgnore (eventKind e) (eventData e) := by
  rcases h with h | h <;> simp [decodeEvent, h]

/-- Elsewhere an illegal word is a reserved row (R78). -/
theorem decodeEvent_illegal {S : Byte} {st : Lifecycle} {e : EventWord} (hs : st ≠ .shutdown)
    (h : illegalWord e = true) : decodeEvent S st false e = decodeIllegal (eventKind e) (eventData e) := by
  simp [decodeEvent, hs, h]

/-- A data word goes by the state, and in SYNCING by the sentinel (R77). -/
theorem decodeEvent_data {S : Byte} {st : Lifecycle} (d : Byte) (hs : st ≠ .shutdown) :
    decodeEvent S st false (eventWord 0#4 d) = decodeRdData S st d := by
  simp [decodeEvent, hs, illegalWord_eventWord_zero, decodeLegal]

/-- The six words without an operand, in a block that takes events (R77). -/
theorem decodeEvent_fixed {S : Byte} {st : Lifecycle} (hs : st ≠ .shutdown) :
    decodeEvent S st false 0x100#12 = decodeRdEnd st ∧
    decodeEvent S st false 0x200#12 = .srcClosed ∧
    decodeEvent S st false 0x300#12 = (if st = .idle then .start else .startMisplaced) ∧
    decodeEvent S st false 0x400#12 = .stop ∧
    decodeEvent S st false 0x500#12 = (if st = .idle then .openFail else .openFailMisplaced) ∧
    decodeEvent S st false 0x600#12 = (if st = .presenting then .sinkAck else .sinkAckMisplaced) := by
  have h1 : illegalWord 0x100#12 = false := by decide
  have h2 : illegalWord 0x200#12 = false := by decide
  have h3 : illegalWord 0x300#12 = false := by decide
  have h4 : illegalWord 0x400#12 = false := by decide
  have h5 : illegalWord 0x500#12 = false := by decide
  have h6 : illegalWord 0x600#12 = false := by decide
  simp only [decodeEvent, hs, h1, h2, h3, h4, h5, h6, decide_false, Bool.or_self, Bool.false_eq_true, if_false]
  exact ⟨rfl, rfl, rfl, rfl, rfl, rfl⟩

end Sys2Proof.Laws
end

