-- ==== Sys2Proof/Laws/Memory.lean ====
section
/-! SUPPORT. The laws of the storage arrays: a read after a write, the canonical form and what keeps it, and what an
array of values and a range read hold. -/

namespace Sys2Proof.Machine

variable {w : Nat}

/-- The payload buffer is a list of the host's cells. -/
theorem memory_eight_is_cells : Memory 8 = List Host.Cell := rfl

@[simp] theorem Memory.read_nil (i : Nat) : Memory.read ([] : Memory w) i = none := rfl

theorem Memory.read_cons (a : Nat) (v : BitVec w) (m : Memory w) (i : Nat) :
    Memory.read ((a, v) :: m) i = if a = i then some v else Memory.read m i := rfl

@[simp] theorem Memory.read_write_same (m : Memory w) (i : Nat) (v : BitVec w) :
    Memory.read (Memory.write m i v) i = some v := by
  induction m with
  | nil => simp [Memory.write, Memory.read]
  | cons c m ih =>
    obtain ⟨a, u⟩ := c
    rcases Nat.lt_trichotomy i a with h | h | h
    · simp [Memory.write, Memory.read, h]
    · simp [Memory.write, Memory.read, h]
    · simp [Memory.write, Memory.read, Nat.not_lt_of_gt h, Nat.ne_of_gt h, Nat.ne_of_lt h, ih]

theorem Memory.read_write_other (m : Memory w) {i j : Nat} (v : BitVec w) (h : j ≠ i) :
    Memory.read (Memory.write m i v) j = Memory.read m j := by
  induction m with
  | nil => simp [Memory.write, Memory.read, h.symm]
  | cons c m ih =>
    obtain ⟨a, u⟩ := c
    rcases Nat.lt_trichotomy i a with h' | h' | h'
    · simp [Memory.write, Memory.read, h', h.symm]
    · subst h'
      simp [Memory.write, Memory.read, h.symm]
    · simp [Memory.write, Memory.read, Nat.not_lt_of_gt h', Nat.ne_of_gt h', ih]

/-! ## The canonical form -/

theorem Memory.wf_nil (bound : Nat) : Memory.wf bound ([] : Memory w) = true := rfl

theorem Memory.wfFrom_cons {bound lo a : Nat} {v : BitVec w} {m : Memory w} :
    Memory.wfFrom bound lo ((a, v) :: m) = true ↔
      lo ≤ a ∧ a < bound ∧ Memory.wfFrom bound (a + 1) m = true := by
  simp [Memory.wfFrom, and_assoc]

theorem Memory.wfFrom_mono {bound lo lo' : Nat} {m : Memory w} (h : lo' ≤ lo)
    (hm : Memory.wfFrom bound lo m = true) : Memory.wfFrom bound lo' m = true := by
  cases m with
  | nil => rfl
  | cons c m =>
    obtain ⟨a, v⟩ := c
    rw [Memory.wfFrom_cons] at hm ⊢
    exact ⟨Nat.le_trans h hm.1, hm.2⟩

/-- Below its first index an array in canonical form holds nothing. -/
theorem Memory.read_lt_of_wfFrom {bound lo i : Nat} {m : Memory w}
    (hm : Memory.wfFrom bound lo m = true) (h : i < lo) : Memory.read m i = none := by
  induction m generalizing lo with
  | nil => rfl
  | cons c m ih =>
    obtain ⟨a, v⟩ := c
    rw [Memory.wfFrom_cons] at hm
    rw [Memory.read_cons, if_neg (by omega)]
    exact ih hm.2.2 (by omega)

/-- From its bound on an array in canonical form holds nothing. -/
theorem Memory.read_ge_of_wf {bound i : Nat} {m : Memory w} (hm : Memory.wf bound m = true) (h : bound ≤ i) :
    Memory.read m i = none := by
  have aux : ∀ lo, Memory.wfFrom bound lo m = true → Memory.read m i = none := by
    induction m with
    | nil => intro _ _; rfl
    | cons c m ih =>
      obtain ⟨a, v⟩ := c
      intro lo hlo
      rw [Memory.wfFrom_cons] at hlo
      rw [Memory.read_cons, if_neg (by omega)]
      exact ih (Memory.wfFrom_mono (Nat.zero_le _) hlo.2.2) _ hlo.2.2
  exact aux 0 hm

theorem Memory.wfFrom_write {bound lo i : Nat} {m : Memory w} (v : BitVec w)
    (hm : Memory.wfFrom bound lo m = true) (hlo : lo ≤ i) (hi : i < bound) :
    Memory.wfFrom bound lo (Memory.write m i v) = true := by
  induction m generalizing lo with
  | nil => simp [Memory.write, Memory.wfFrom, hlo, hi]
  | cons c m ih =>
    obtain ⟨a, u⟩ := c
    rw [Memory.wfFrom_cons] at hm
    rcases Nat.lt_trichotomy i a with h | h | h
    · simp only [Memory.write, if_pos h, Memory.wfFrom_cons]
      exact ⟨hlo, hi, h, hm.2⟩
    · subst h
      simp only [Memory.write, Nat.lt_irrefl, if_false, if_true, Memory.wfFrom_cons]
      exact ⟨hlo, hi, hm.2.2⟩
    · simp only [Memory.write, Nat.not_lt_of_gt h, Nat.ne_of_gt h, if_false, Memory.wfFrom_cons]
      exact ⟨hm.1, hm.2.1, ih hm.2.2 h⟩

/-- A write below the bound keeps the canonical form. -/
theorem Memory.wf_write {bound i : Nat} {m : Memory w} (v : BitVec w) (hm : Memory.wf bound m = true)
    (hi : i < bound) : Memory.wf bound (Memory.write m i v) = true :=
  Memory.wfFrom_write v hm (Nat.zero_le _) hi

/-- Two arrays in canonical form that read alike are the same list. -/
theorem Memory.ext_of_wf {bound : Nat} {m m' : Memory w} (hm : Memory.wf bound m = true)
    (hm' : Memory.wf bound m' = true) (h : ∀ i, Memory.read m i = Memory.read m' i) : m = m' := by
  have aux : ∀ (m m' : Memory w) lo, Memory.wfFrom bound lo m = true → Memory.wfFrom bound lo m' = true →
      (∀ i, Memory.read m i = Memory.read m' i) → m = m' := by
    intro m
    induction m with
    | nil =>
      intro m' lo _ _ h
      cases m' with
      | nil => rfl
      | cons c m' =>
        obtain ⟨a, v⟩ := c
        have := h a
        simp [Memory.read_cons] at this
    | cons c m ih =>
      obtain ⟨a, v⟩ := c
      intro m' lo h1 h2 h
      cases m' with
      | nil =>
        have := h a
        simp [Memory.read_cons] at this
      | cons c' m' =>
        obtain ⟨a', v'⟩ := c'
        rw [Memory.wfFrom_cons] at h1 h2
        have ha : a = a' := by
          rcases Nat.lt_trichotomy a a' with hlt | heq | hgt
          · have := h a
            rw [Memory.read_cons, if_pos rfl, Memory.read_cons, if_neg (by omega),
              Memory.read_lt_of_wfFrom h2.2.2 (by omega)] at this
            cases this
          · exact heq
          · have := h a'
            rw [Memory.read_cons, if_neg (by omega), Memory.read_lt_of_wfFrom h1.2.2 (by omega),
              Memory.read_cons, if_pos rfl] at this
            cases this
        subst ha
        have hv : v = v' := by
          have := h a
          simpa [Memory.read_cons] using this
        subst hv
        have hrest : ∀ i, Memory.read m i = Memory.read m' i := by
          intro i
          have := h i
          by_cases hi : a = i
          · subst hi
            rw [Memory.read_lt_of_wfFrom h1.2.2 (by omega), Memory.read_lt_of_wfFrom h2.2.2 (by omega)]
          · simpa [Memory.read_cons, hi] using this
        rw [ih m' (a + 1) h1.2.2 h2.2.2 hrest]
  exact aux m m' 0 hm hm' h

/-! ## An array of values -/

theorem Memory.wfFrom_ofValues {bound a : Nat} (vs : List (BitVec w)) (h : a + vs.length ≤ bound) :
    Memory.wfFrom bound a (Memory.ofValues a vs) = true := by
  induction vs generalizing a with
  | nil => rfl
  | cons v vs ih =>
    rw [List.length_cons] at h
    rw [Memory.ofValues, Memory.wfFrom_cons]
    exact ⟨Nat.le_refl _, by omega, ih (by omega)⟩

/-- The array of at most `bound` values is in canonical form. -/
theorem Memory.wf_ofValues {bound : Nat} (vs : List (BitVec w)) (h : vs.length ≤ bound) :
    Memory.wf bound (Memory.ofValues 0 vs) = true :=
  Memory.wfFrom_ofValues vs (by omega)

theorem Memory.read_ofValues_add (vs : List (BitVec w)) (a i : Nat) :
    Memory.read (Memory.ofValues a vs) (a + i) = vs[i]? := by
  induction vs generalizing a i with
  | nil => simp [Memory.ofValues]
  | cons v vs ih =>
    rw [Memory.ofValues, Memory.read_cons]
    cases i with
    | zero => simp
    | succ i =>
      rw [if_neg (by omega), show a + (i + 1) = a + 1 + i by omega, ih]
      simp

@[simp] theorem Memory.read_ofValues (vs : List (BitVec w)) (i : Nat) :
    Memory.read (Memory.ofValues 0 vs) i = vs[i]? := by
  simpa using Memory.read_ofValues_add vs 0 i

/-! ## A range read -/

/-- A range read succeeds exactly with the list of its entries. -/
theorem Memory.readRange_eq_some {m : Memory w} {a n : Nat} {vs : List (BitVec w)} :
    Memory.readRange m a n = some vs ↔ vs.length = n ∧ ∀ k, k < n → Memory.read m (a + k) = vs[k]? := by
  induction n generalizing a vs with
  | zero =>
    rw [Memory.readRange, Option.some.injEq]
    constructor
    · rintro rfl
      simp
    · rintro ⟨h, -⟩
      exact (List.length_eq_zero_iff.mp h).symm
  | succ n ih =>
    rw [Memory.readRange]
    constructor
    · intro h
      split at h
      · cases h
      · rename_i v hv
        split at h
        · cases h
        · rename_i us hus
          obtain ⟨hl, hr⟩ := ih.mp hus
          cases h
          refine ⟨by simp [hl], ?_⟩
          intro k hk
          cases k with
          | zero => simpa using hv
          | succ k =>
            rw [show a + (k + 1) = a + 1 + k by omega, hr k (by omega)]
            simp
    · rintro ⟨hl, hr⟩
      cases vs with
      | nil => simp at hl
      | cons v us =>
        have h0 : Memory.read m a = some v := by simpa using hr 0 (by omega)
        have hus : Memory.readRange m (a + 1) n = some us := by
          refine ih.mpr ⟨by simpa using hl, ?_⟩
          intro k hk
          have := hr (k + 1) (by omega)
          rw [show a + (k + 1) = a + 1 + k by omega] at this
          simpa using this
        simp [h0, hus]

/-- A range read fails exactly where one of its entries is unwritten. -/
theorem Memory.readRange_eq_none {m : Memory w} {a n : Nat} :
    Memory.readRange m a n = none ↔ ∃ k, k < n ∧ Memory.read m (a + k) = none := by
  induction n generalizing a with
  | zero => simp [Memory.readRange]
  | succ n ih =>
    rw [Memory.readRange]
    cases hv : Memory.read m a with
    | none => simpa using ⟨0, by omega, by simpa using hv⟩
    | some v =>
      have step : (∃ k, k < n + 1 ∧ Memory.read m (a + k) = none) ↔
          ∃ k, k < n ∧ Memory.read m (a + 1 + k) = none := by
        constructor
        · rintro ⟨k, hk, hr⟩
          cases k with
          | zero => simp [hv] at hr
          | succ k => exact ⟨k, by omega, by rwa [show a + 1 + k = a + (k + 1) by omega]⟩
        · rintro ⟨k, hk, hr⟩
          exact ⟨k + 1, by omega, by rwa [show a + (k + 1) = a + 1 + k by omega]⟩
      rw [step, ← ih]
      cases Memory.readRange m (a + 1) n <;> simp

end Sys2Proof.Machine
end

