-- ==== Sys2Proof/Laws/State.lean ====
section
/-! SUPPORT. One lemma per field per named update of State, true by unfolding, so that no later proof unfolds a record
update. -/

namespace Sys2Proof.Machine

variable (s : State)

/-! ## emit -/

@[simp] theorem State.emit_st (o : Output) : (s.emit o).st = s.st := rfl
@[simp] theorem State.emit_cnt (o : Output) : (s.emit o).cnt = s.cnt := rfl
@[simp] theorem State.emit_reqN (o : Output) : (s.emit o).reqN = s.reqN := rfl
@[simp] theorem State.emit_rspCnt (o : Output) : (s.emit o).rspCnt = s.rspCnt := rfl
@[simp] theorem State.emit_stopPend (o : Output) : (s.emit o).stopPend = s.stopPend := rfl
@[simp] theorem State.emit_exit (o : Output) : (s.emit o).exit = s.exit := rfl
@[simp] theorem State.emit_fault (o : Output) : (s.emit o).fault = s.fault := rfl
@[simp] theorem State.emit_pbuf (o : Output) : (s.emit o).pbuf = s.pbuf := rfl
@[simp] theorem State.emit_raster (o : Output) : (s.emit o).raster = s.raster := rfl
@[simp] theorem State.emit_cfg (o : Output) : (s.emit o).cfg = s.cfg := rfl
@[simp] theorem State.emit_inputs (o : Output) : (s.emit o).inputs = s.inputs := rfl
@[simp] theorem State.emit_outs (o : Output) : (s.emit o).outs = s.outs ++ [o] := rfl
@[simp] theorem State.emit_fnOut (o : Output) : (s.emit o).fnOut = s.fnOut := rfl

/-! ## raiseFault -/

@[simp] theorem State.raiseFault_st (c : FaultCode) : (s.raiseFault c).st = s.st := rfl
@[simp] theorem State.raiseFault_cnt (c : FaultCode) : (s.raiseFault c).cnt = s.cnt := rfl
@[simp] theorem State.raiseFault_reqN (c : FaultCode) : (s.raiseFault c).reqN = s.reqN := rfl
@[simp] theorem State.raiseFault_rspCnt (c : FaultCode) : (s.raiseFault c).rspCnt = s.rspCnt := rfl
@[simp] theorem State.raiseFault_stopPend (c : FaultCode) : (s.raiseFault c).stopPend = s.stopPend := rfl
@[simp] theorem State.raiseFault_exit (c : FaultCode) : (s.raiseFault c).exit = s.exit := rfl
@[simp] theorem State.raiseFault_fault (c : FaultCode) : (s.raiseFault c).fault = c := rfl
@[simp] theorem State.raiseFault_pbuf (c : FaultCode) : (s.raiseFault c).pbuf = s.pbuf := rfl
@[simp] theorem State.raiseFault_raster (c : FaultCode) : (s.raiseFault c).raster = s.raster := rfl
@[simp] theorem State.raiseFault_cfg (c : FaultCode) : (s.raiseFault c).cfg = s.cfg := rfl
@[simp] theorem State.raiseFault_inputs (c : FaultCode) : (s.raiseFault c).inputs = s.inputs := rfl
@[simp] theorem State.raiseFault_outs (c : FaultCode) : (s.raiseFault c).outs = s.outs ++ [.fault c] := rfl
@[simp] theorem State.raiseFault_fnOut (c : FaultCode) : (s.raiseFault c).fnOut = s.fnOut := rfl

/-! ## enterShutdown -/

@[simp] theorem State.enterShutdown_st (x : ExitCode) : (s.enterShutdown x).st = .shutdown := rfl
@[simp] theorem State.enterShutdown_cnt (x : ExitCode) : (s.enterShutdown x).cnt = s.cnt := rfl
@[simp] theorem State.enterShutdown_reqN (x : ExitCode) : (s.enterShutdown x).reqN = 0 := rfl
@[simp] theorem State.enterShutdown_rspCnt (x : ExitCode) : (s.enterShutdown x).rspCnt = 0 := rfl
@[simp] theorem State.enterShutdown_stopPend (x : ExitCode) : (s.enterShutdown x).stopPend = s.stopPend := rfl
@[simp] theorem State.enterShutdown_exit (x : ExitCode) : (s.enterShutdown x).exit = x := rfl
@[simp] theorem State.enterShutdown_fault (x : ExitCode) : (s.enterShutdown x).fault = s.fault := rfl
@[simp] theorem State.enterShutdown_pbuf (x : ExitCode) : (s.enterShutdown x).pbuf = s.pbuf := rfl
@[simp] theorem State.enterShutdown_raster (x : ExitCode) : (s.enterShutdown x).raster = s.raster := rfl
@[simp] theorem State.enterShutdown_cfg (x : ExitCode) : (s.enterShutdown x).cfg = s.cfg := rfl
@[simp] theorem State.enterShutdown_inputs (x : ExitCode) : (s.enterShutdown x).inputs = s.inputs := rfl
@[simp] theorem State.enterShutdown_outs (x : ExitCode) : (s.enterShutdown x).outs = s.outs ++ [.release x] := rfl
@[simp] theorem State.enterShutdown_fnOut (x : ExitCode) : (s.enterShutdown x).fnOut = s.fnOut := rfl

/-! ## applyReset -/

@[simp] theorem State.applyReset_st : (s.applyReset).st = .idle := rfl
@[simp] theorem State.applyReset_cnt : (s.applyReset).cnt = 0 := rfl
@[simp] theorem State.applyReset_reqN : (s.applyReset).reqN = 0 := rfl
@[simp] theorem State.applyReset_rspCnt : (s.applyReset).rspCnt = 0 := rfl
@[simp] theorem State.applyReset_stopPend : (s.applyReset).stopPend = false := rfl
@[simp] theorem State.applyReset_exit : (s.applyReset).exit = .none := rfl
@[simp] theorem State.applyReset_fault : (s.applyReset).fault = .none := rfl
@[simp] theorem State.applyReset_pbuf : (s.applyReset).pbuf = [] := rfl
@[simp] theorem State.applyReset_raster : (s.applyReset).raster = [] := rfl
@[simp] theorem State.applyReset_cfg : (s.applyReset).cfg = s.cfg := rfl
@[simp] theorem State.applyReset_inputs : (s.applyReset).inputs = s.inputs := rfl
@[simp] theorem State.applyReset_outs : (s.applyReset).outs = s.outs := rfl
@[simp] theorem State.applyReset_fnOut : (s.applyReset).fnOut = s.fnOut := rfl

/-! ## withNextEvent -/

@[simp] theorem State.withNextEvent_st (e : EventWord) : (s.withNextEvent e).st = s.st := rfl
@[simp] theorem State.withNextEvent_cnt (e : EventWord) : (s.withNextEvent e).cnt = s.cnt := rfl
@[simp] theorem State.withNextEvent_reqN (e : EventWord) : (s.withNextEvent e).reqN = s.reqN := rfl
@[simp] theorem State.withNextEvent_rspCnt (e : EventWord) : (s.withNextEvent e).rspCnt = s.rspCnt := rfl
@[simp] theorem State.withNextEvent_stopPend (e : EventWord) : (s.withNextEvent e).stopPend = s.stopPend := rfl
@[simp] theorem State.withNextEvent_exit (e : EventWord) : (s.withNextEvent e).exit = s.exit := rfl
@[simp] theorem State.withNextEvent_fault (e : EventWord) : (s.withNextEvent e).fault = s.fault := rfl
@[simp] theorem State.withNextEvent_pbuf (e : EventWord) : (s.withNextEvent e).pbuf = s.pbuf := rfl
@[simp] theorem State.withNextEvent_raster (e : EventWord) : (s.withNextEvent e).raster = s.raster := rfl
@[simp] theorem State.withNextEvent_cfg (e : EventWord) : (s.withNextEvent e).cfg = s.cfg := rfl
@[simp] theorem State.withNextEvent_inputs (e : EventWord) : (s.withNextEvent e).inputs = .event e :: s.inputs := rfl
@[simp] theorem State.withNextEvent_outs (e : EventWord) : (s.withNextEvent e).outs = s.outs := rfl
@[simp] theorem State.withNextEvent_fnOut (e : EventWord) : (s.withNextEvent e).fnOut = s.fnOut := rfl

/-! ## The state after reset -/

@[simp] theorem State.resetWith_st (cfg : Config) : (State.resetWith cfg).st = .idle := rfl
@[simp] theorem State.resetWith_cnt (cfg : Config) : (State.resetWith cfg).cnt = 0 := rfl
@[simp] theorem State.resetWith_reqN (cfg : Config) : (State.resetWith cfg).reqN = 0 := rfl
@[simp] theorem State.resetWith_rspCnt (cfg : Config) : (State.resetWith cfg).rspCnt = 0 := rfl
@[simp] theorem State.resetWith_stopPend (cfg : Config) : (State.resetWith cfg).stopPend = false := rfl
@[simp] theorem State.resetWith_exit (cfg : Config) : (State.resetWith cfg).exit = .none := rfl
@[simp] theorem State.resetWith_fault (cfg : Config) : (State.resetWith cfg).fault = .none := rfl
@[simp] theorem State.resetWith_pbuf (cfg : Config) : (State.resetWith cfg).pbuf = [] := rfl
@[simp] theorem State.resetWith_raster (cfg : Config) : (State.resetWith cfg).raster = [] := rfl
@[simp] theorem State.resetWith_cfg (cfg : Config) : (State.resetWith cfg).cfg = cfg := rfl
@[simp] theorem State.resetWith_inputs (cfg : Config) : (State.resetWith cfg).inputs = [] := rfl
@[simp] theorem State.resetWith_outs (cfg : Config) : (State.resetWith cfg).outs = [] := rfl
@[simp] theorem State.resetWith_fnOut (cfg : Config) : (State.resetWith cfg).fnOut = .none := rfl

end Sys2Proof.Machine
end

