-- ==== Sys2Proof/Laws/Ops.lean ====
section
/-! SUPPORT. For each shared operation, one lemma that says all it can do. Proofs about the meanings cite these and do
not unfold the operations. -/

namespace Sys2Proof.Machine

/-! ## Halted and ended blocks -/

theorem State.halted_iff {s : State} : s.halted = true ↔ s.fault ≠ .none := by simp [State.halted]

theorem State.halted_eq_false {s : State} : s.halted = false ↔ s.fault = .none := by simp [State.halted]

theorem State.ignoresEvents_iff {s : State} : s.ignoresEvents = true ↔ (s.fault ≠ .none ∨ s.st = .shutdown) := by
  simp [State.ignoresEvents, State.halted]

theorem State.ignoresEvents_eq_false {s : State} :
    s.ignoresEvents = false ↔ (s.fault = .none ∧ s.st ≠ .shutdown) := by
  simp [State.ignoresEvents, State.halted]

/-! ## What answers -/

/-- Going on from an answer gives a next state exactly through a next state. -/
theorem Answer.andThen_eq_next {r : Answer} {k : State → Answer} {t : State} :
    Answer.andThen r k = .next t ↔ ∃ u, r = .next u ∧ k u = .next t := by
  cases r <;> simp [Answer.andThen]

@[simp] theorem Answer.andThen_next (u : State) (k : State → Answer) : Answer.andThen (.next u) k = k u := rfl

theorem unlessIgnored_of_ignores {s : State} (h : s.ignoresEvents = true) (k : Answer) :
    unlessIgnored s k = .next s := by simp [unlessIgnored, h]

theorem unlessIgnored_of_live {s : State} (h : s.ignoresEvents = false) (k : Answer) : unlessIgnored s k = k := by
  simp [unlessIgnored, h]

/-- Under the first checks of a step an operation is ignored, or runs in a block that takes events. -/
theorem unlessIgnored_eq_next {s t : State} {k : Answer} :
    unlessIgnored s k = .next t ↔
      (s.ignoresEvents = true ∧ t = s) ∨ (s.ignoresEvents = false ∧ k = .next t) := by
  cases h : s.ignoresEvents
  · simp [unlessIgnored_of_live h]
  · simp [unlessIgnored_of_ignores h, eq_comm]

/-- A restricted operation answers a next state only where it applies. -/
theorem onlyIf_eq_next {b : Bool} {k : Answer} {t : State} :
    onlyIf b k = .next t ↔ b = true ∧ k = .next t := by
  cases b <;> simp [onlyIf]

/-- After a check, either its fault is raised or the operation goes on. -/
theorem afterCheck_eq_next {s t : State} {r : Except FaultCode State} {k : State → Answer} :
    afterCheck s r k = .next t ↔
      (∃ c, r = .error c ∧ t = s.raiseFault c) ∨ (∃ u, r = .ok u ∧ k u = .next t) := by
  cases r <;> simp [afterCheck, eq_comm]

/-! ## The checks of a response -/

/-- A beat is refused with F_NO_REQUEST, refused with F_OVERLONG, or counted (40_source_port.md R102). -/
theorem State.acceptBeat_cases (s : State) :
    (s.reqN = 0 ∧ s.acceptBeat = .error .noRequest) ∨
    (s.reqN ≠ 0 ∧ s.rspCnt = s.reqN ∧ s.acceptBeat = .error .overlong) ∨
    (s.reqN ≠ 0 ∧ s.rspCnt ≠ s.reqN ∧ s.acceptBeat = .ok { s with rspCnt := s.rspCnt + 1 }) := by
  by_cases h : s.reqN = 0
  · simp [State.acceptBeat, h]
  · by_cases h' : s.rspCnt = s.reqN <;> simp [State.acceptBeat, h, h']

/-- An end is refused with F_NO_REQUEST, or clears the request (40_source_port.md R103). -/
theorem State.acceptEnd_cases (s : State) :
    (s.reqN = 0 ∧ s.acceptEnd = .error .noRequest) ∨
    (s.reqN ≠ 0 ∧ s.acceptEnd = .ok { s with reqN := 0, rspCnt := 0 }) := by
  by_cases h : s.reqN = 0 <;> simp [State.acceptEnd, h]

/-- The loop top shuts the block down or scans again (44_control.md R195). -/
theorem State.loopTop_cases (s : State) :
    (s.stopPend = true ∧ s.loopTop = s.enterShutdown .stopped) ∨
    (s.stopPend = false ∧ s.loopTop = { s with st := .syncing }) := by
  cases h : s.stopPend <;> simp [State.loopTop, h]

end Sys2Proof.Machine
end

