-- ==== Sys2Proof/Laws/Events.lean ====
section
/-! SUPPORT. What one event, settle and a step can do, said once. -/

namespace Sys2Proof.Machine

theorem State.decodeEnabled_iff {s : State} : s.decodeEnabled = true ↔ (s.fault = .none ∧ s.st = .decoding) := by
  simp [State.decodeEnabled, State.halted]

theorem State.issueEnabled_iff {s : State} :
    s.issueEnabled = true ↔ (s.fault = .none ∧ (s.st = .syncing ∨ s.st = .accumulating) ∧ s.reqN = 0) := by
  simp [State.issueEnabled, State.halted, and_assoc]

/-- Which internal operation is enabled (44_control.md R191). -/
theorem State.enabledOperation_cases (s : State) :
    (s.decodeEnabled = true ∧ s.enabledOperation = some .decode) ∨
    (s.decodeEnabled = false ∧ s.issueEnabled = true ∧ s.enabledOperation = some .issue) ∨
    (s.decodeEnabled = false ∧ s.issueEnabled = false ∧ s.enabledOperation = none) := by
  cases h : s.decodeEnabled <;> cases h' : s.issueEnabled <;> simp [State.enabledOperation, h, h']

/-- Settle runs DECODE where it is enabled, ISSUE where it is, and else nothing (44_control.md R191). -/
theorem settle_cases (s : State) :
    (s.decodeEnabled = true ∧ settle s = execDecode s) ∨
    (s.decodeEnabled = false ∧ s.issueEnabled = true ∧ settle s = execIssue s) ∨
    (s.decodeEnabled = false ∧ s.issueEnabled = false ∧ settle s = .next s) := by
  rcases s.enabledOperation_cases with ⟨h, he⟩ | ⟨h, h', he⟩ | ⟨h, h', he⟩
  · exact .inl ⟨h, by simp [settle, he, exec]⟩
  · exact .inr (.inl ⟨h, h', by simp [settle, he, exec]⟩)
  · exact .inr (.inr ⟨h, h', by simp [settle, he]⟩)

/-- A halted block, and a block that waits for its host, settles as it is. -/
theorem settle_of_not_enabled {s : State} (h : s.enabledOperation = none) : settle s = .next s := by
  simp [settle, h]

/-- ISSUE, where it is enabled (40_source_port.md R100). -/
theorem execIssue_of_enabled {s : State} (h : s.issueEnabled = true) :
    execIssue s = .next ({ s with reqN := s.requestSize, rspCnt := 0 }.emit (.rdReq s.requestSize)) := by
  simp [execIssue, onlyIf, h]

/-- DECODE, where it is enabled: F_UNWRITTEN, or the whole raster (43_unpacker.md R162). -/
theorem execDecode_cases {s : State} (h : s.decodeEnabled = true) :
    (Memory.readRange s.pbuf 0 s.cfg.P = none ∧ execDecode s = .next (s.raiseFault .unwritten)) ∨
    (∃ bs, Memory.readRange s.pbuf 0 s.cfg.P = some bs ∧
      execDecode s = .next ({ s with raster := Memory.ofValues 0 (unpackPayload bs), st := .presenting }.emit
        (.frame (unpackPayload bs)))) := by
  cases hr : Memory.readRange s.pbuf 0 s.cfg.P with
  | none => exact .inl ⟨rfl, by simp [execDecode, onlyIf, h, hr]⟩
  | some bs => exact .inr ⟨bs, rfl, by simp [execDecode, onlyIf, h, hr]⟩

/-- One event answers a next state through the selected operation, then settle. -/
theorem takeEvent_eq_next {s t : State} {e : EventWord} :
    takeEvent s e = .next t ↔ ∃ u, exec (s.selects e) s = .next u ∧ settle u = .next t :=
  Answer.andThen_eq_next

/-- All a step can do: it waits, takes a reset, or takes an event, under a legal configuration. -/
theorem step_eq_next {s t : State} :
    step s = .next t ↔ s.cfg.legal = true ∧
      ((s.inputs = [] ∧ t = s) ∨
       (∃ rest, s.inputs = .reset :: rest ∧ t = ({ s with inputs := rest } : State).applyReset) ∨
       (∃ e rest, s.inputs = .event e :: rest ∧ takeEvent { s with inputs := rest } e = .next t)) := by
  unfold step stepUnderLegal
  cases hl : s.cfg.legal
  · simp only [Bool.false_eq_true, if_false, false_and, reduceCtorEq]
  · simp only [if_true, true_and]
    unfold takeInput
    cases hi : s.inputs with
    | nil => simpa using ⟨Eq.symm, Eq.symm⟩
    | cons x rest =>
      cases x with
      | event e => simp
      | reset => simpa using ⟨Eq.symm, Eq.symm⟩

/-- The word the host places is the one the next step takes. -/
theorem step_withFetchWord {s : State} (h : s.cfg.legal = true) (nbits w : Nat) :
    step (s.withFetchWord nbits w) = takeEvent s (BitVec.ofNat 12 w) := by
  simp [step, stepUnderLegal, takeInput, State.withFetchWord, State.withNextEvent, h]

end Sys2Proof.Machine
end

