-- ==== Sys2Proof/Laws/Exec.lean ====
section
/-! SUPPORT. All an operation can do, said once: `exec_effect` inverts `exec`, and every rule about all operations is a
case analysis of `Effect`. -/

namespace Sys2Proof.Machine

/-- The operations that accept a data beat (40_source_port.md R102). -/
def isBeatOperation : Instr → Bool
  | .syncDiscard _ | .syncHit | .accStore _ | .rdDataCheck _ => true
  | _ => false

/-- The operations that answer a request (R102, R103, R104). -/
def isPortOperation : Instr → Bool
  | .syncDiscard _ | .syncHit | .accStore _ | .rdDataCheck _ => true
  | .syncEnd | .accEnd | .rdEndCheck | .srcClosed => true
  | _ => false

/-- The operations that reach the loop top in the state `st` (44_control.md R192, R195, R196). -/
def reachesLoopTop (st : Lifecycle) : Instr → Bool
  | .start => decide (st = .idle)
  | .sinkAck => decide (st = .presenting)
  | .loopTop => decide (st = .idle ∨ st = .presenting)
  | _ => false

/-- What an operation does to a state, one constructor per outcome the rules name. -/
inductive Effect : Instr → State → State → Prop where
  | ignored {i s} (hi : isEventOperation i = true) (h : s.ignoresEvents = true) : Effect i s s
  | noRequest {i s} (hi : isPortOperation i = true) (h : s.ignoresEvents = false) (hr : s.reqN = 0) :
      Effect i s (s.raiseFault .noRequest)
  | overlong {i s} (hi : isBeatOperation i = true) (h : s.ignoresEvents = false) (hr : s.reqN ≠ 0)
      (hb : s.rspCnt = s.reqN) : Effect i s (s.raiseFault .overlong)
  | counted {d s} (h : s.ignoresEvents = false) (hr : s.reqN ≠ 0) (hb : s.rspCnt ≠ s.reqN) :
      Effect (.rdDataCheck d) s { s with rspCnt := s.rspCnt + 1 }
  | discarded {d s} (h : s.ignoresEvents = false) (hst : s.st = .syncing) (hd : d ≠ s.cfg.S) (hr : s.reqN ≠ 0)
      (hb : s.rspCnt ≠ s.reqN) : Effect (.syncDiscard d) s { s with rspCnt := s.rspCnt + 1 }
  | hit {s} (h : s.ignoresEvents = false) (hst : s.st = .syncing) (hr : s.reqN ≠ 0) (hb : s.rspCnt ≠ s.reqN) :
      Effect .syncHit s { s with rspCnt := s.rspCnt + 1, cnt := 0, st := .accumulating }
  | stored {d s} (h : s.ignoresEvents = false) (hst : s.st = .accumulating) (hr : s.reqN ≠ 0)
      (hb : s.rspCnt ≠ s.reqN) (hc : s.cnt < s.cfg.P) :
      Effect (.accStore d) s
        { s with rspCnt := s.rspCnt + 1, pbuf := Memory.write s.pbuf s.cnt d, cnt := s.cnt + 1 }
  | storeFull {d s} (h : s.ignoresEvents = false) (hst : s.st = .accumulating) (hr : s.reqN ≠ 0)
      (hb : s.rspCnt ≠ s.reqN) (hc : s.cfg.P ≤ s.cnt) :
      Effect (.accStore d) s (({ s with rspCnt := s.rspCnt + 1 } : State).raiseFault .unwritten)
  | ended {i s} (hi : i = .rdEndCheck ∨ (i = .syncEnd ∧ s.st = .syncing) ∨
        (i = .accEnd ∧ s.st = .accumulating ∧ s.cnt ≠ s.cfg.P)) (h : s.ignoresEvents = false) (hr : s.reqN ≠ 0) :
      Effect i s { s with reqN := 0, rspCnt := 0 }
  | completed {s} (h : s.ignoresEvents = false) (hst : s.st = .accumulating) (hr : s.reqN ≠ 0)
      (hc : s.cnt = s.cfg.P) : Effect .accEnd s { s with reqN := 0, rspCnt := 0, st := .decoding }
  | closed {s} (h : s.ignoresEvents = false) (hr : s.reqN ≠ 0) :
      Effect .srcClosed s (s.enterShutdown .sourceClosed)
  | scans {i s} (hi : reachesLoopTop s.st i = true) (h : s.ignoresEvents = false) (hp : s.stopPend = false) :
      Effect i s { s with st := .syncing }
  | stops {i s} (hi : reachesLoopTop s.st i = true) (h : s.ignoresEvents = false) (hp : s.stopPend = true) :
      Effect i s (s.enterShutdown .stopped)
  | badStart {i s} (hi : i = .start ∨ i = .startMisplaced) (h : s.ignoresEvents = false) (hst : s.st ≠ .idle) :
      Effect i s (s.raiseFault .badStart)
  | badOpenFail {i s} (hi : i = .openFail ∨ i = .openFailMisplaced) (h : s.ignoresEvents = false)
      (hst : s.st ≠ .idle) : Effect i s (s.raiseFault .badOpenFail)
  | badAck {i s} (hi : i = .sinkAck ∨ i = .sinkAckMisplaced) (h : s.ignoresEvents = false)
      (hst : s.st ≠ .presenting) : Effect i s (s.raiseFault .badAck)
  | latched {s} (h : s.ignoresEvents = false) (hc : s.cfg.stopSampling = .loopTop) :
      Effect .stop s { s with stopPend := true }
  | stopsNow {s} (h : s.ignoresEvents = false) (hc : s.cfg.stopSampling = .anyStep) :
      Effect .stop s (s.enterShutdown .stopped)
  | unavailable {s} (h : s.ignoresEvents = false) (hst : s.st = .idle) :
      Effect .openFail s (s.enterShutdown .sourceUnavailable)
  | illegal {i s} (hi : (∃ d, i = .illegalKind7 d) ∨ (∃ l d, i = .illegalKind8F l d) ∨ ∃ k d, i = .illegalData k d)
      (h : s.ignoresEvents = false) : Effect i s (s.raiseFault .illegalEvent)
  | issued {s} (h : s.issueEnabled = true) :
      Effect .issue s (({ s with reqN := s.requestSize, rspCnt := 0 } : State).emit (.rdReq s.requestSize))
  | decoded {s bs} (h : s.decodeEnabled = true) (hr : Memory.readRange s.pbuf 0 s.cfg.P = some bs) :
      Effect .decode s (({ s with raster := Memory.ofValues 0 (unpackPayload bs), st := .presenting } : State).emit
        (.frame (unpackPayload bs)))
  | undecodable {s} (h : s.decodeEnabled = true) (hr : Memory.readRange s.pbuf 0 s.cfg.P = none) :
      Effect .decode s (s.raiseFault .unwritten)
  | computed {i s} (r : FnResult)
      (hi : (∃ b k, i = .field b k) ∨ (∃ b, i = .unpack b) ∨ (∃ x, i = .lum x) ∨ ∃ x, i = .rgb x) :
      Effect i s { s with fnOut := r }

theorem execRdDataCheck_effect {d : Byte} {s t : State} (h : execRdDataCheck d s = .next t) :
    Effect (.rdDataCheck d) s t := by
  rcases unlessIgnored_eq_next.mp h with ⟨hi, rfl⟩ | ⟨hi, h⟩
  · exact .ignored rfl hi
  · rcases s.acceptBeat_cases with ⟨hr, e⟩ | ⟨hr, hb, e⟩ | ⟨hr, hb, e⟩ <;> rw [e] at h <;> cases h
    · exact .noRequest rfl hi hr
    · exact .overlong rfl hi hr hb
    · exact .counted hi hr hb

theorem execSyncDiscard_effect {d : Byte} {s t : State} (h : execSyncDiscard d s = .next t) :
    Effect (.syncDiscard d) s t := by
  rcases unlessIgnored_eq_next.mp h with ⟨hi, rfl⟩ | ⟨hi, h⟩
  · exact .ignored rfl hi
  · obtain ⟨hc, h⟩ := onlyIf_eq_next.mp h
    simp only [Bool.and_eq_true, decide_eq_true_eq] at hc
    rcases s.acceptBeat_cases with ⟨hr, e⟩ | ⟨hr, hb, e⟩ | ⟨hr, hb, e⟩ <;> rw [e] at h <;> cases h
    · exact .noRequest rfl hi hr
    · exact .overlong rfl hi hr hb
    · exact .discarded hi hc.1 hc.2 hr hb

theorem execSyncHit_effect {s t : State} (h : execSyncHit s = .next t) : Effect .syncHit s t := by
  rcases unlessIgnored_eq_next.mp h with ⟨hi, rfl⟩ | ⟨hi, h⟩
  · exact .ignored rfl hi
  · obtain ⟨hc, h⟩ := onlyIf_eq_next.mp h
    rcases s.acceptBeat_cases with ⟨hr, e⟩ | ⟨hr, hb, e⟩ | ⟨hr, hb, e⟩ <;> rw [e] at h <;> cases h
    · exact .noRequest rfl hi hr
    · exact .overlong rfl hi hr hb
    · exact .hit hi (of_decide_eq_true hc) hr hb

theorem execAccStore_effect {d : Byte} {s t : State} (h : execAccStore d s = .next t) :
    Effect (.accStore d) s t := by
  rcases unlessIgnored_eq_next.mp h with ⟨hi, rfl⟩ | ⟨hi, h⟩
  · exact .ignored rfl hi
  · obtain ⟨hc, h⟩ := onlyIf_eq_next.mp h
    have hst := of_decide_eq_true hc
    rcases s.acceptBeat_cases with ⟨hr, e⟩ | ⟨hr, hb, e⟩ | ⟨hr, hb, e⟩ <;> rw [e] at h
    · cases h
      exact .noRequest rfl hi hr
    · cases h
      exact .overlong rfl hi hr hb
    · simp only [afterCheck] at h
      split at h <;> cases h
      · exact .stored hi hst hr hb ‹_›
      · exact .storeFull hi hst hr hb (Nat.not_lt.mp ‹_›)

theorem execRdEndCheck_effect {s t : State} (h : execRdEndCheck s = .next t) : Effect .rdEndCheck s t := by
  rcases unlessIgnored_eq_next.mp h with ⟨hi, rfl⟩ | ⟨hi, h⟩
  · exact .ignored rfl hi
  · rcases s.acceptEnd_cases with ⟨hr, e⟩ | ⟨hr, e⟩ <;> rw [e] at h <;> cases h
    · exact .noRequest rfl hi hr
    · exact .ended (.inl rfl) hi hr

theorem execSyncEnd_effect {s t : State} (h : execSyncEnd s = .next t) : Effect .syncEnd s t := by
  rcases unlessIgnored_eq_next.mp h with ⟨hi, rfl⟩ | ⟨hi, h⟩
  · exact .ignored rfl hi
  · obtain ⟨hc, h⟩ := onlyIf_eq_next.mp h
    rcases s.acceptEnd_cases with ⟨hr, e⟩ | ⟨hr, e⟩ <;> rw [e] at h <;> cases h
    · exact .noRequest rfl hi hr
    · exact .ended (.inr (.inl ⟨rfl, of_decide_eq_true hc⟩)) hi hr

theorem execAccEnd_effect {s t : State} (h : execAccEnd s = .next t) : Effect .accEnd s t := by
  rcases unlessIgnored_eq_next.mp h with ⟨hi, rfl⟩ | ⟨hi, h⟩
  · exact .ignored rfl hi
  · obtain ⟨hc, h⟩ := onlyIf_eq_next.mp h
    have hst := of_decide_eq_true hc
    rcases s.acceptEnd_cases with ⟨hr, e⟩ | ⟨hr, e⟩ <;> rw [e] at h
    · cases h
      exact .noRequest rfl hi hr
    · simp only [afterCheck] at h
      split at h <;> cases h
      · exact .completed hi hst hr ‹_›
      · exact .ended (.inr (.inr ⟨rfl, hst, ‹_›⟩)) hi hr

theorem execSrcClosed_effect {s t : State} (h : execSrcClosed s = .next t) : Effect .srcClosed s t := by
  rcases unlessIgnored_eq_next.mp h with ⟨hi, rfl⟩ | ⟨hi, h⟩
  · exact .ignored rfl hi
  · split at h <;> cases h
    · exact .noRequest rfl hi ‹_›
    · exact .closed hi ‹_›

/-- The loop top, wherever an operation reaches it. -/
theorem loopTop_effect {i : Instr} {s : State} (hi : reachesLoopTop s.st i = true) (h : s.ignoresEvents = false) :
    Effect i s s.loopTop := by
  rcases s.loopTop_cases with ⟨hp, e⟩ | ⟨hp, e⟩ <;> rw [e]
  · exact .stops hi h hp
  · exact .scans hi h hp

theorem execStart_effect {s t : State} (h : execStart s = .next t) : Effect .start s t := by
  rcases unlessIgnored_eq_next.mp h with ⟨hi, rfl⟩ | ⟨hi, h⟩
  · exact .ignored rfl hi
  · split at h <;> cases h
    · exact loopTop_effect (decide_eq_true ‹_›) hi
    · exact .badStart (.inl rfl) hi ‹_›

theorem execStop_effect {s t : State} (h : execStop s = .next t) : Effect .stop s t := by
  rcases unlessIgnored_eq_next.mp h with ⟨hi, rfl⟩ | ⟨hi, h⟩
  · exact .ignored rfl hi
  · split at h <;> cases h
    · exact .latched hi ‹_›
    · exact .stopsNow hi ‹_›

theorem execOpenFail_effect {s t : State} (h : execOpenFail s = .next t) : Effect .openFail s t := by
  rcases unlessIgnored_eq_next.mp h with ⟨hi, rfl⟩ | ⟨hi, h⟩
  · exact .ignored rfl hi
  · split at h <;> cases h
    · exact .unavailable hi ‹_›
    · exact .badOpenFail (.inl rfl) hi ‹_›

theorem execSinkAck_effect {s t : State} (h : execSinkAck s = .next t) : Effect .sinkAck s t := by
  rcases unlessIgnored_eq_next.mp h with ⟨hi, rfl⟩ | ⟨hi, h⟩
  · exact .ignored rfl hi
  · split at h <;> cases h
    · exact loopTop_effect (decide_eq_true ‹_›) hi
    · exact .badAck (.inl rfl) hi ‹_›

theorem execStartMisplaced_effect {s t : State} (h : execStartMisplaced s = .next t) :
    Effect .startMisplaced s t := by
  rcases unlessIgnored_eq_next.mp h with ⟨hi, rfl⟩ | ⟨hi, h⟩
  · exact .ignored rfl hi
  · obtain ⟨hc, h⟩ := onlyIf_eq_next.mp h
    cases h
    exact .badStart (.inr rfl) hi (of_decide_eq_true hc)

theorem execOpenFailMisplaced_effect {s t : State} (h : execOpenFailMisplaced s = .next t) :
    Effect .openFailMisplaced s t := by
  rcases unlessIgnored_eq_next.mp h with ⟨hi, rfl⟩ | ⟨hi, h⟩
  · exact .ignored rfl hi
  · obtain ⟨hc, h⟩ := onlyIf_eq_next.mp h
    cases h
    exact .badOpenFail (.inr rfl) hi (of_decide_eq_true hc)

theorem execSinkAckMisplaced_effect {s t : State} (h : execSinkAckMisplaced s = .next t) :
    Effect .sinkAckMisplaced s t := by
  rcases unlessIgnored_eq_next.mp h with ⟨hi, rfl⟩ | ⟨hi, h⟩
  · exact .ignored rfl hi
  · obtain ⟨hc, h⟩ := onlyIf_eq_next.mp h
    cases h
    exact .badAck (.inr rfl) hi (of_decide_eq_true hc)

theorem execIllegalKind7_effect {data : Byte} {s t : State} (h : execIllegalKind7 data s = .next t) :
    Effect (.illegalKind7 data) s t := by
  rcases unlessIgnored_eq_next.mp h with ⟨hi, rfl⟩ | ⟨hi, h⟩
  · exact .ignored rfl hi
  · cases h
    exact .illegal (.inl ⟨_, rfl⟩) hi

theorem execIllegalKind8F_effect {low : BitVec 3} {data : Byte} {s t : State}
    (h : execIllegalKind8F low data s = .next t) : Effect (.illegalKind8F low data) s t := by
  rcases unlessIgnored_eq_next.mp h with ⟨hi, rfl⟩ | ⟨hi, h⟩
  · exact .ignored rfl hi
  · cases h
    exact .illegal (.inr (.inl ⟨_, _, rfl⟩)) hi

theorem execIllegalData_effect {kind : BitVec 4} {data : Byte} {s t : State}
    (h : execIllegalData kind data s = .next t) : Effect (.illegalData kind data) s t := by
  rcases unlessIgnored_eq_next.mp h with ⟨hi, rfl⟩ | ⟨hi, h⟩
  · exact .ignored rfl hi
  · obtain ⟨-, h⟩ := onlyIf_eq_next.mp h
    cases h
    exact .illegal (.inr (.inr ⟨_, _, rfl⟩)) hi

theorem execShutdownIgnore_effect {kind : BitVec 4} {data : Byte} {s t : State}
    (h : execShutdownIgnore kind data s = .next t) : Effect (.shutdownIgnore kind data) s t := by
  rcases unlessIgnored_eq_next.mp h with ⟨hi, rfl⟩ | ⟨hi, h⟩
  · exact .ignored rfl hi
  · cases h

theorem execIssue_effect {s t : State} (h : execIssue s = .next t) : Effect .issue s t := by
  obtain ⟨hc, h⟩ := onlyIf_eq_next.mp h
  cases h
  exact .issued hc

theorem execDecode_effect {s t : State} (h : execDecode s = .next t) : Effect .decode s t := by
  obtain ⟨hc, -⟩ := onlyIf_eq_next.mp h
  rcases execDecode_cases hc with ⟨hr, e⟩ | ⟨bs, hr, e⟩ <;> rw [e] at h <;> cases h
  · exact .undecodable hc hr
  · exact .decoded hc hr

theorem execLoopTop_effect {s t : State} (h : execLoopTop s = .next t) : Effect .loopTop s t := by
  obtain ⟨hc, h⟩ := onlyIf_eq_next.mp h
  cases h
  simp only [State.atLoopTop, Bool.and_eq_true, Bool.not_eq_true', decide_eq_true_eq] at hc
  refine loopTop_effect (decide_eq_true hc.2) ?_
  rw [State.ignoresEvents_eq_false]
  refine ⟨State.halted_eq_false.mp hc.1, ?_⟩
  rcases hc.2 with h | h <;> rw [h] <;> decide

/-- All an operation can do when it answers a next state. -/
theorem exec_effect {i : Instr} {s t : State} (h : exec i s = .next t) : Effect i s t := by
  cases i with
  | syncDiscard d => exact execSyncDiscard_effect h
  | syncHit => exact execSyncHit_effect h
  | accStore d => exact execAccStore_effect h
  | rdDataCheck d => exact execRdDataCheck_effect h
  | syncEnd => exact execSyncEnd_effect h
  | accEnd => exact execAccEnd_effect h
  | rdEndCheck => exact execRdEndCheck_effect h
  | srcClosed => exact execSrcClosed_effect h
  | start => exact execStart_effect h
  | stop => exact execStop_effect h
  | openFail => exact execOpenFail_effect h
  | sinkAck => exact execSinkAck_effect h
  | startMisplaced => exact execStartMisplaced_effect h
  | openFailMisplaced => exact execOpenFailMisplaced_effect h
  | sinkAckMisplaced => exact execSinkAckMisplaced_effect h
  | illegalKind7 data => exact execIllegalKind7_effect h
  | illegalKind8F low data => exact execIllegalKind8F_effect h
  | illegalData kind data => exact execIllegalData_effect h
  | shutdownIgnore kind data => exact execShutdownIgnore_effect h
  | issue => exact execIssue_effect h
  | decode => exact execDecode_effect h
  | loopTop => exact execLoopTop_effect h
  | field b k => cases h; exact .computed _ (.inl ⟨_, _, rfl⟩)
  | unpack b => cases h; exact .computed _ (.inr (.inl ⟨_, rfl⟩))
  | lum x => cases h; exact .computed _ (.inr (.inr (.inl ⟨_, rfl⟩)))
  | rgb x => cases h; exact .computed _ (.inr (.inr (.inr ⟨_, rfl⟩)))

end Sys2Proof.Machine
end

