-- ==== Sys2Proof/Laws/Operands.lean ====
section
/-! SUPPORT. The laws of the pure functions of 43_unpacker.md. -/

namespace Sys2Proof.Machine

/-- FIELD as the naturals of 43_unpacker.md R160. -/
theorem fieldOf_toNat (b : Byte) (k : BitVec 2) :
    (fieldOf b k).toNat = (b.toNat >>> (6 - 2 * k.toNat)) % 4 := by
  simp [fieldOf, BitVec.toNat_setWidth, BitVec.toNat_ushiftRight]

/-- `PACK(UNPACK(b)) = b` (R168). -/
theorem packSamples_fieldOf : ∀ b : Byte,
    packSamples (fieldOf b 0#2) (fieldOf b 1#2) (fieldOf b 2#2) (fieldOf b 3#2) = b := by decide

/-- `UNPACK(PACK(s0,s1,s2,s3)) = [s0,s1,s2,s3]` (R168). -/
theorem unpackByte_packSamples : ∀ s0 s1 s2 s3 : Sample,
    unpackByte (packSamples s0 s1 s2 s3) = [s0, s1, s2, s3] := by decide

/-- The luminance is exact in 8 bits (R165). -/
theorem lumOf_toNat : ∀ x : Sample, (lumOf x).toNat = 85 * x.toNat := by decide

@[simp] theorem unpackByte_length (b : Byte) : (unpackByte b).length = 4 := rfl

@[simp] theorem unpackPayload_nil : unpackPayload [] = [] := rfl

@[simp] theorem unpackPayload_cons (b : Byte) (bs : List Byte) :
    unpackPayload (b :: bs) = unpackByte b ++ unpackPayload bs := rfl

/-- The output length is exactly `4 * len(payload)` (R162). -/
theorem unpackPayload_length (bs : List Byte) : (unpackPayload bs).length = 4 * bs.length := by
  induction bs with
  | nil => rfl
  | cons b bs ih =>
    rw [unpackPayload_cons, List.length_append, ih, unpackByte_length, List.length_cons]
    omega

/-- Entry `k` of a byte's four samples is its field `k` (R161). -/
theorem unpackByte_getElem? (b : Byte) {k : Nat} (h : k < 4) :
    (unpackByte b)[k]? = some (fieldOf b (BitVec.ofNat 2 k)) := by
  have : k = 0 ∨ k = 1 ∨ k = 2 ∨ k = 3 := by omega
  rcases this with rfl | rfl | rfl | rfl <;> rfl

/-- Sample `i` of an unpacked payload is field `i mod 4` of byte `i div 4`, the loop of R162. -/
theorem unpackPayload_getElem? (bs : List Byte) (i : Nat) :
    (unpackPayload bs)[i]? = bs[payloadIndex i]?.map (fun b => fieldOf b (fieldIndex i)) := by
  induction bs generalizing i with
  | nil => simp
  | cons b bs ih =>
    rw [unpackPayload_cons]
    by_cases h : i < 4
    · rw [List.getElem?_append_left (by simpa using h), unpackByte_getElem? b h]
      simp [payloadIndex, fieldIndex, Nat.div_eq_of_lt h, Nat.mod_eq_of_lt h]
    · rw [List.getElem?_append_right (by simpa using h), unpackByte_length, ih]
      have h1 : payloadIndex i = payloadIndex (i - 4) + 1 := by unfold payloadIndex; omega
      have h2 : fieldIndex i = fieldIndex (i - 4) := by
        unfold fieldIndex
        rw [show i % 4 = (i - 4) % 4 by omega]
      rw [h1, h2]
      simp

/-- A legal configuration's frame has four samples to a payload byte (00_scope.md R4, R5). -/
theorem four_mul_P {cfg : Config} (h : cfg.legal = true) : 4 * cfg.P = cfg.N := by
  simp [Config.legal] at h
  unfold Config.P Config.N
  omega

/-- A legal configuration's payload is not empty (R5). -/
theorem P_pos {cfg : Config} (h : cfg.legal = true) : 1 ≤ cfg.P := by
  have h4 := four_mul_P h
  simp [Config.legal] at h
  have : 1 ≤ cfg.N := Nat.mul_pos h.1.1 h.1.2
  omega

/-- Every count up to `P` fits in `CNT_W` bits (00_scope.md R4, R6). -/
theorem P_lt_two_pow_cntW (cfg : Config) : cfg.P < 2 ^ cfg.cntW := by
  unfold Config.cntW
  split
  · rename_i h
    rw [h]
    decide
  · exact Nat.lt_log2_self

end Sys2Proof.Machine
end

