-- ==== Sys2Proof/Tests/Slice0.lean ====
section
/-! SUPPORT. The model's own tests: the well-formedness smoke, decoding of words written out from 30_encoding.md,
single-step tests whose expected results stand in 95_test_vectors.md, and for every statement with premises a state that
meets them. -/

namespace Sys2Proof.Tests

open Sys2Proof Sys2Proof.Machine

/-! ## States to test on -/

/-- `W = 4`, `H = 2`, so `P = 2` and `N = 8` (95_test_vectors.md, conventions). -/
def smallCfg : Config := { W := 4, H := 2, S := 0x26#8, stopSampling := .loopTop }

/-- The same with `ANY_STEP`. -/
def anyStepCfg : Config := { smallCfg with stopSampling := .anyStep }

def fresh : State := State.resetWith smallCfg

/-- SYNCING, req 1, rsp 0. -/
def scanning : State := { fresh with st := .syncing, reqN := 1 }

/-- ACCUMULATING right after SYNC_HIT: cnt 0, req 1, rsp 1. -/
def justHit : State := { fresh with st := .accumulating, reqN := 1, rspCnt := 1 }

/-- ACCUMULATING, cnt 0, req 2, rsp 0: the payload has been asked for. -/
def collecting : State := { fresh with st := .accumulating, reqN := 2 }

/-- ACCUMULATING, cnt 1, req 2, rsp 1. -/
def halfway : State := { collecting with cnt := 1, rspCnt := 1, pbuf := [(0, 0xE4#8)] }

/-- ACCUMULATING, cnt 2 = P, req 2, rsp 2. -/
def full : State := { collecting with cnt := 2, rspCnt := 2, pbuf := [(0, 0xE4#8), (1, 0x1B#8)] }

/-- DECODING, the payload complete: a state inside a step. -/
def unpacking : State := { full with st := .decoding, reqN := 0, rspCnt := 0 }

/-- PRESENTING the frame of `E4 1B`. -/
def presenting : State :=
  { unpacking with st := .presenting, raster := Memory.ofValues 0 (unpackPayload [0xE4#8, 0x1B#8]) }

def ended : State := { fresh with st := .shutdown, exit := .stopped }

def faulted : State := { scanning with fault := .badStart }

def withCfg (s : State) (c : Config) : State := { s with cfg := c }

/-- The state after the event `e`, if the step gives one. -/
def after (s : State) (e : EventWord) : Option State :=
  match step { s with inputs := [.event e] } with
  | .next t => some t
  | .fault _ => none
  | .refused _ => none

/-- The columns of 95_test_vectors.md's tables: `st`, `cnt`, `req`, `rsp`, `sp`, and the outputs. -/
structure Columns where
  st : Lifecycle
  cnt : Nat
  req : Nat
  rsp : Nat
  sp : Bool
  outs : List Output
  deriving DecidableEq, Repr

def columns (s : Option State) : Option Columns :=
  s.map fun t => { st := t.st, cnt := t.cnt, req := t.reqN, rsp := t.rspCnt, sp := t.stopPend, outs := t.outs }

def statusAfter (s : Option State) : Option StatusWord := s.map State.status

def fnOutAfter (i : Instr) (s : State) : FnResult :=
  match exec i s with
  | .next t => t.fnOut
  | .fault _ => .none
  | .refused _ => .none

/-! ## Well-formedness: each check refuses an ill-formed term -/

theorem test_wellFormed_syncDiscard : wellFormed 0x26#8 (.syncDiscard 0x26#8) = false := by decide
theorem test_wellFormed_syncDiscard_other : wellFormed 0x26#8 (.syncDiscard 0x27#8) = true := by decide
theorem test_wellFormed_illegalData_kind0 : wellFormed 0x26#8 (.illegalData 0#4 1#8) = false := by decide
theorem test_wellFormed_illegalData_kind7 : wellFormed 0x26#8 (.illegalData 7#4 1#8) = false := by decide
theorem test_wellFormed_illegalData_zero : wellFormed 0x26#8 (.illegalData 3#4 0#8) = false := by decide
theorem test_wellFormed_illegalData_kind6 : wellFormed 0x26#8 (.illegalData 6#4 1#8) = true := by decide

/-! ## Decoding: every row's word, written out from 30_encoding.md R73, R74, R81 -/

theorem test_decode_syncDiscard : decodeEvent 0x26#8 .syncing false 0b000001000001#12 = .syncDiscard 0x41#8 := by decide
theorem test_decode_syncHit : decodeEvent 0x26#8 .syncing false 0b000000100110#12 = .syncHit := by decide
theorem test_decode_accStore : decodeEvent 0x26#8 .accumulating false 0b000011100100#12 = .accStore 0xE4#8 := by decide
theorem test_decode_rdDataCheck : decodeEvent 0x26#8 .presenting false 0b000000000001#12 = .rdDataCheck 1#8 := by decide
theorem test_decode_syncEnd : decodeEvent 0x26#8 .syncing false 0b000100000000#12 = .syncEnd := by decide
theorem test_decode_accEnd : decodeEvent 0x26#8 .accumulating false 0b000100000000#12 = .accEnd := by decide
theorem test_decode_rdEndCheck : decodeEvent 0x26#8 .idle false 0b000100000000#12 = .rdEndCheck := by decide
theorem test_decode_srcClosed : decodeEvent 0x26#8 .accumulating false 0b001000000000#12 = .srcClosed := by decide
theorem test_decode_start : decodeEvent 0x26#8 .idle false 0b001100000000#12 = .start := by decide
theorem test_decode_stop : decodeEvent 0x26#8 .syncing false 0b010000000000#12 = .stop := by decide
theorem test_decode_openFail : decodeEvent 0x26#8 .idle false 0b010100000000#12 = .openFail := by decide
theorem test_decode_sinkAck : decodeEvent 0x26#8 .presenting false 0b011000000000#12 = .sinkAck := by decide
theorem test_decode_startMisplaced :
    decodeEvent 0x26#8 .syncing false 0b001100000000#12 = .startMisplaced := by decide
theorem test_decode_openFailMisplaced :
    decodeEvent 0x26#8 .presenting false 0b010100000000#12 = .openFailMisplaced := by decide
theorem test_decode_sinkAckMisplaced :
    decodeEvent 0x26#8 .accumulating false 0b011000000000#12 = .sinkAckMisplaced := by decide
theorem test_decode_illegalKind7 :
    decodeEvent 0x26#8 .syncing false 0b011100100110#12 = .illegalKind7 0x26#8 := by decide
theorem test_decode_illegalKind8F :
    decodeEvent 0x26#8 .syncing false 0b111100000000#12 = .illegalKind8F 0b111#3 0#8 := by decide
theorem test_decode_illegalData :
    decodeEvent 0x26#8 .idle false 0b001111111111#12 = .illegalData 3#4 0xFF#8 := by decide
theorem test_decode_shutdownIgnore :
    decodeEvent 0x26#8 .shutdown false 0b100000000000#12 = .shutdownIgnore 8#4 0#8 := by decide
theorem test_decode_halted :
    decodeEvent 0x26#8 .idle true 0b001100000000#12 = .shutdownIgnore 3#4 0#8 := by decide
/-- 95_test_vectors.md 2.2: with `S = 0x00`, `0x26` is discarded and `0x00` is the sentinel. -/
theorem test_decode_other_sentinel :
    decodeEvent 0#8 .syncing false 0x026#12 = .syncDiscard 0x26#8 ∧
    decodeEvent 0#8 .syncing false 0x000#12 = .syncHit := by decide
theorem test_decodeTableWord_start : decodeTableWord 16 0x300 = some .start := by decide
theorem test_decodeTableWord_too_wide : decodeTableWord 16 0x1000 = none := by decide

/-! ## Reset and the status word (95_test_vectors.md 2.6) -/

theorem test_reset_status : State.reset.status = 0x000#11 := by decide
theorem test_status_presenting : presenting.status = 0x204#11 := by decide
theorem test_status_shutdown_stopped_pending :
    ({ ended with stopPend := true } : State).status = 0x41D#11 := by decide
theorem test_status_faulted_presenting :
    ({ presenting with stopPend := true, fault := .noRequest } : State).status = 0x68C#11 := by decide
theorem test_cntW_default : Config.thisHardware.cntW = 11 := by decide
theorem test_reset_memory_wf :
    Memory.wf State.reset.cfg.P State.reset.pbuf = true ∧
    Memory.wf State.reset.cfg.N State.reset.raster = true := by decide

/-! ## One step of each operation (95_test_vectors.md 2.1 to 2.6 and section 3) -/

theorem test_start : columns (after fresh 0x300#12) = some ⟨.syncing, 0, 1, 0, false, [.rdReq 1]⟩ := by decide
theorem test_start_stop_pending :
    columns (after { fresh with stopPend := true } 0x300#12) =
      some ⟨.shutdown, 0, 0, 0, true, [.release .stopped]⟩ := by decide
theorem test_syncDiscard : columns (after scanning 0x027#12) = some ⟨.syncing, 0, 1, 1, false, []⟩ := by decide
theorem test_syncHit :
    columns (after { scanning with cnt := 17 } 0x026#12) = some ⟨.accumulating, 0, 1, 1, false, []⟩ := by decide
theorem test_overlong :
    columns (after justHit 0x000#12) = some ⟨.accumulating, 0, 1, 1, false, [.fault .overlong]⟩ ∧
    statusAfter (after justHit 0x000#12) = some 0x4C2#11 := by decide
theorem test_rdDataCheck : columns (after fresh 0x026#12) = some ⟨.idle, 0, 0, 0, false, [.fault .noRequest]⟩ := by decide
theorem test_syncEnd : columns (after scanning 0x100#12) = some ⟨.syncing, 0, 1, 0, false, [.rdReq 1]⟩ := by decide
theorem test_accEnd_sentinel :
    columns (after justHit 0x100#12) = some ⟨.accumulating, 0, 2, 0, false, [.rdReq 2]⟩ := by decide
theorem test_accEnd_complete :
    columns (after full 0x100#12) =
      some ⟨.presenting, 2, 0, 0, false, [.frame [3#2, 2#2, 1#2, 0#2, 0#2, 1#2, 2#2, 3#2]]⟩ := by decide
theorem test_rdEndCheck :
    columns (after presenting 0x100#12) = some ⟨.presenting, 2, 0, 0, false, [.fault .noRequest]⟩ := by decide
theorem test_accStore :
    (after halfway 0x026#12).map (fun t => (t.cnt, t.rspCnt, Memory.read t.pbuf 1, Memory.read t.pbuf 0)) =
      some (2, 2, some 0x26#8, some 0xE4#8) := by decide
theorem test_srcClosed :
    columns (after halfway 0x200#12) = some ⟨.shutdown, 1, 0, 0, false, [.release .sourceClosed]⟩ ∧
    statusAfter (after halfway 0x200#12) = some 0x425#11 := by decide
theorem test_stop_latched :
    columns (after collecting 0x400#12) = some ⟨.accumulating, 0, 2, 0, true, []⟩ := by decide
theorem test_stop_any_step :
    columns (after (withCfg halfway anyStepCfg) 0x400#12) =
      some ⟨.shutdown, 1, 0, 0, false, [.release .stopped]⟩ := by decide
theorem test_openFail :
    columns (after fresh 0x500#12) = some ⟨.shutdown, 0, 0, 0, false, [.release .sourceUnavailable]⟩ ∧
    statusAfter (after fresh 0x500#12) = some 0x435#11 := by decide
theorem test_sinkAck :
    columns (after presenting 0x600#12) = some ⟨.syncing, 2, 1, 0, false, [.rdReq 1]⟩ := by decide
theorem test_startMisplaced : statusAfter (after scanning 0x300#12) = some 0x501#11 := by decide
theorem test_openFailMisplaced :
    columns (after presenting 0x500#12) = some ⟨.presenting, 2, 0, 0, false, [.fault .badOpenFail]⟩ := by decide
theorem test_sinkAckMisplaced : statusAfter (after fresh 0x600#12) = some 0x580#11 := by decide
theorem test_illegalKind7 : statusAfter (after scanning 0x726#12) = some 0x441#11 := by decide
theorem test_illegalKind8F :
    columns (after scanning 0xF00#12) = some ⟨.syncing, 0, 1, 0, false, [.fault .illegalEvent]⟩ := by decide
theorem test_illegalData : statusAfter (after scanning 0x101#12) = some 0x441#11 := by decide
theorem test_shutdownIgnore : columns (after ended 0x800#12) = some ⟨.shutdown, 0, 0, 0, false, []⟩ := by decide
theorem test_halted_ignores : columns (after faulted 0x100#12) = some ⟨.syncing, 0, 1, 0, false, []⟩ := by decide
/-- 95_test_vectors.md 2.4. -/
theorem test_field : fieldOf 0xE4#8 0#2 = 3#2 ∧ fieldOf 0xE4#8 3#2 = 0#2 ∧ fieldOf 0x80#8 0#2 = 2#2 := by decide
theorem test_unpack : fnOutAfter (.unpack 0x6C#8) fresh = .samples [1#2, 2#2, 3#2, 0#2] := by decide
theorem test_lum : fnOutAfter (.lum 2#2) fresh = .level 0xAA#8 := by decide
theorem test_rgb : fnOutAfter (.rgb 3#2) ended = .triple { red := 255#8, green := 255#8, blue := 255#8 } := by decide
theorem test_pack : packSamples 2#2 1#2 0#2 3#2 = 0x93#8 := by decide
/-- 95_test_vectors.md 2.4, the map of pixels with `W = 64`. -/
theorem test_pixel_map :
    pixelIndex Config.thisHardware 32 17 = 2065 ∧ payloadIndex 2065 = 516 ∧ fieldIndex 2065 = 1#2 := by decide
/-- R163: with `W = 4`, row 1 begins at sample 4. -/
theorem test_frame_pixel :
    presenting.framePixel 1 0 = some 0#2 ∧ presenting.framePixel 0 0 = some 3#2 ∧
    presenting.framePixel 1 3 = some 3#2 ∧ presenting.framePixel 2 0 = none := by decide
/-- R105's trace: SEND_FRAME is two chunks. -/
theorem test_trace_sendFrame :
    traceWords 0x26#8 (.sendFrame [0xE4#8, 0x1B#8]) = [0x026#12, 0x100#12, 0x0E4#12, 0x01B#12, 0x100#12] := by decide
theorem test_fetch_word_runs :
    columns (match step (State.reset.withFetchWord 16 0x300) with | .next t => some t | .fault _ => none | .refused _ => none) =
      some ⟨.syncing, 0, 1, 0, false, [.rdReq 1]⟩ := by decide

end Sys2Proof.Tests
end

