-- ==== Sys2Proof/Tests/Witnesses.lean ====
section
/-! SUPPORT. For every statement of Certificates/Slice0/Obligations.lean with premises, and for each clause of one with
several, a concrete state and operands that meet the premises together: `witness_<statement>`. -/

namespace Sys2Proof.Tests

open Sys2Proof Sys2Proof.Machine

/-! ## States that meet the invariant -/

theorem inv_fresh : Inv fresh :=
  ⟨by decide, by decide, by decide, by decide, by decide, by decide, by decide, fun _ =>
    ⟨by decide, by decide, by decide, by decide, fun h => absurd h (by decide), by decide, by decide, by decide⟩⟩

theorem inv_scanning : Inv scanning :=
  ⟨by decide, by decide, by decide, by decide, by decide, by decide, by decide, fun _ =>
    ⟨by decide, by decide, by decide, by decide, fun h => absurd h (by decide), by decide, by decide, by decide⟩⟩

theorem inv_justHit : Inv justHit :=
  ⟨by decide, by decide, by decide, by decide, by decide, by decide, by decide, fun _ =>
    ⟨by decide, by decide, by decide, by decide, fun h => absurd h (by decide), by decide, by decide, by decide⟩⟩

theorem inv_collecting : Inv collecting :=
  ⟨by decide, by decide, by decide, by decide, by decide, by decide, by decide, fun _ =>
    ⟨by decide, by decide, by decide, by decide, fun h => absurd h (by decide), by decide, by decide, by decide⟩⟩

theorem inv_halfway : Inv halfway :=
  ⟨by decide, by decide, by decide, by decide, by decide, by decide, by decide, fun _ =>
    ⟨by decide, by decide, by decide, by decide, fun h => absurd h (by decide), by decide, by decide, by decide⟩⟩

theorem inv_full : Inv full :=
  ⟨by decide, by decide, by decide, by decide, by decide, by decide, by decide, fun _ =>
    ⟨by decide, by decide, by decide, by decide, fun h => absurd h (by decide), by decide, by decide, by decide⟩⟩

theorem inv_presenting : Inv presenting :=
  ⟨by decide, by decide, by decide, by decide, by decide, by decide, by decide, fun _ =>
    ⟨by decide, by decide, by decide, by decide, fun _ => ⟨by decide, fun i hi => by
      have hi : i < 8 := hi
      interval_cases i <;> exact ⟨_, rfl, rfl⟩⟩, by decide, by decide, by decide⟩⟩

/-- The invariant looks neither at the host's inputs nor at the trace. -/
theorem inv_withInputs {s : State} (h : Inv s) (ins : List Input) : Inv { s with inputs := ins } :=
  ⟨h.legal, h.cntLe, h.reqLe, h.rspLe, h.pbufWf, h.rasterWf, h.anyStepNoPend, fun hf =>
    ⟨(h.live hf).notDecoding, (h.live hf).requestIff, (h.live hf).noRequestNoBeats, (h.live hf).payloadWritten,
      (h.live hf).rasterDecoded, (h.live hf).exitIff, (h.live hf).countFollowsBeats, (h.live hf).scanAsksOne⟩⟩

/-- A state with the host's inputs placed. -/
def given (s : State) (ins : List Input) : State := { s with inputs := ins }

/-! ## The step, reset and the configuration -/

theorem witness_StepRunsSelectedOperation :
    (given fresh [.event 0x300#12]).cfg.legal = true ∧
    (given fresh [.event 0x300#12]).inputs = .event 0x300#12 :: [] := by decide

theorem witness_ResetGivesEveryFieldItsResetValue :
    (given faulted [.reset]).cfg.legal = true ∧ (given faulted [.reset]).inputs = .reset :: [] := by decide

theorem witness_IllegalConfigurationIsRefused_legal :
    1 ≤ ({ smallCfg with W := 1, H := 4 } : Config).W ∧ 1 ≤ ({ smallCfg with W := 1, H := 4 } : Config).H ∧
    ({ smallCfg with W := 1, H := 4 } : Config).W * ({ smallCfg with W := 1, H := 4 } : Config).H % 4 = 0 := by decide

theorem witness_IllegalConfigurationIsRefused_not_multiple :
    ¬ (1 ≤ ({ smallCfg with W := 1, H := 3 } : Config).W ∧ 1 ≤ ({ smallCfg with W := 1, H := 3 } : Config).H ∧
      ({ smallCfg with W := 1, H := 3 } : Config).W * ({ smallCfg with W := 1, H := 3 } : Config).H % 4 = 0) := by
  decide

theorem witness_IllegalConfigurationIsRefused_step :
    ¬ (1 ≤ (withCfg fresh { smallCfg with W := 0 }).cfg.W ∧ 1 ≤ (withCfg fresh { smallCfg with W := 0 }).cfg.H ∧
      (withCfg fresh { smallCfg with W := 0 }).cfg.W * (withCfg fresh { smallCfg with W := 0 }).cfg.H % 4 = 0) := by
  decide

/-! ## The source port -/

theorem witness_RdDataCheckCountsTheBeatOrFaults :
    (fresh.fault = .none ∧ fresh.st ≠ .shutdown ∧ fresh.reqN = 0) ∧
    (justHit.fault = .none ∧ justHit.st ≠ .shutdown ∧ justHit.reqN ≠ 0 ∧ justHit.rspCnt = justHit.reqN) ∧
    (scanning.fault = .none ∧ scanning.st ≠ .shutdown ∧ scanning.reqN ≠ 0 ∧ scanning.rspCnt ≠ scanning.reqN) := by
  decide

theorem witness_DataEventFollowsTheBeatRule :
    (presenting.fault = .none ∧ presenting.st ≠ .shutdown ∧ presenting.reqN = 0) ∧
    (full.fault = .none ∧ full.st ≠ .shutdown ∧ full.reqN ≠ 0 ∧ full.rspCnt = full.reqN) ∧
    (halfway.fault = .none ∧ halfway.st = .accumulating ∧ halfway.rspCnt ≠ halfway.reqN ∧
      halfway.cnt < halfway.cfg.P) ∧
    (scanning.fault = .none ∧ scanning.st = .syncing ∧ scanning.rspCnt ≠ scanning.reqN) := by decide

theorem witness_RdEndCheckClearsTheRequestOrFaults :
    (fresh.fault = .none ∧ fresh.st ≠ .shutdown ∧ fresh.reqN = 0) ∧
    (scanning.fault = .none ∧ scanning.st ≠ .shutdown ∧ scanning.reqN ≠ 0) := by decide

theorem witness_EndEventFollowsTheEndRule :
    (fresh.fault = .none ∧ fresh.st ≠ .shutdown ∧ fresh.reqN = 0) ∧
    (full.fault = .none ∧ full.st = .accumulating ∧ full.reqN ≠ 0 ∧ full.cnt = full.cfg.P) ∧
    (scanning.fault = .none ∧ scanning.st = .syncing ∧ scanning.reqN ≠ 0) := by decide

theorem witness_SrcClosedShutsDownOrFaults :
    (presenting.fault = .none ∧ presenting.st ≠ .shutdown ∧ presenting.reqN = 0) ∧
    (full.fault = .none ∧ full.st ≠ .shutdown ∧ full.reqN ≠ 0) := by decide

theorem witness_IssueRequestsOneByteOrTheDeficit :
    (({ scanning with reqN := 0 } : State).fault = .none ∧ ({ scanning with reqN := 0 } : State).st = .syncing ∧
      ({ scanning with reqN := 0 } : State).reqN = 0) ∧
    (({ halfway with reqN := 0 } : State).fault = .none ∧ ({ halfway with reqN := 0 } : State).st = .accumulating ∧
      ({ halfway with reqN := 0 } : State).reqN = 0) := by decide

/-! ## The synchronizer and the accumulator -/

theorem witness_SyncDiscardDropsTheByte :
    scanning.fault = .none ∧ scanning.st = .syncing ∧ (0x27#8 ≠ scanning.cfg.S ∧ 0x25#8 ≠ scanning.cfg.S) := by decide

theorem witness_SyncHitStartsAFrame : scanning.fault = .none ∧ scanning.st = .syncing := by decide

theorem witness_SyncEndAsksAgain :
    (scanning.fault = .none ∧ scanning.st = .syncing ∧ scanning.reqN ≠ 0) ∧
    (({ scanning with reqN := 0 } : State).fault = .none ∧ ({ scanning with reqN := 0 } : State).st = .syncing ∧
      ({ scanning with reqN := 0 } : State).reqN = 0) := by decide

theorem witness_AccStoreStoresTheByteAtCount_no_request :
    ({ collecting with reqN := 0 } : State).fault = .none ∧ ({ collecting with reqN := 0 } : State).st = .accumulating ∧
    ({ collecting with reqN := 0 } : State).reqN = 0 := by decide

theorem witness_AccStoreStoresTheByteAtCount_overlong :
    full.fault = .none ∧ full.st = .accumulating ∧ full.reqN ≠ 0 ∧ full.rspCnt = full.reqN := by decide

theorem witness_AccStoreStoresTheByteAtCount_no_room :
    ({ full with rspCnt := 1 } : State).fault = .none ∧ ({ full with rspCnt := 1 } : State).st = .accumulating ∧
    ({ full with rspCnt := 1 } : State).reqN ≠ 0 ∧
    ({ full with rspCnt := 1 } : State).rspCnt ≠ ({ full with rspCnt := 1 } : State).reqN ∧
    ({ full with rspCnt := 1 } : State).cfg.P ≤ ({ full with rspCnt := 1 } : State).cnt := by decide

theorem witness_AccStoreStoresTheByteAtCount_stored :
    halfway.fault = .none ∧ halfway.st = .accumulating ∧ halfway.reqN ≠ 0 ∧ halfway.rspCnt ≠ halfway.reqN ∧
    halfway.cnt < halfway.cfg.P := by decide

theorem witness_AccEndDecodesACompletePayload :
    (full.fault = .none ∧ full.st = .accumulating ∧ full.reqN ≠ 0 ∧ full.cnt = full.cfg.P) ∧
    (halfway.fault = .none ∧ halfway.st = .accumulating ∧ halfway.reqN ≠ 0 ∧ halfway.cnt ≠ halfway.cfg.P) ∧
    (({ full with reqN := 0 } : State).fault = .none ∧ ({ full with reqN := 0 } : State).st = .accumulating ∧
      ({ full with reqN := 0 } : State).reqN = 0) := by decide

theorem witness_ShortReadOnlyAsksForTheRest :
    (given halfway [.event 0x100#12]).cfg.legal = true ∧ (given halfway [.event 0x100#12]).fault = .none ∧
    (given halfway [.event 0x100#12]).st = .accumulating ∧ (given halfway [.event 0x100#12]).reqN ≠ 0 ∧
    (given halfway [.event 0x100#12]).cnt < (given halfway [.event 0x100#12]).cfg.P ∧
    (given halfway [.event 0x100#12]).inputs = .event 0x100#12 :: [] := by decide

/-! ## The unpacker -/

theorem witness_DecodeUnpacksTheWholePayload :
    unpacking.cfg.legal = true ∧ unpacking.fault = .none ∧ unpacking.st = .decoding ∧
    ∀ j, j < unpacking.cfg.P → (Memory.read unpacking.pbuf j).isSome := by decide

theorem witness_DecodeUnpacksTheWholePayload_unwritten :
    ({ unpacking with pbuf := [(0, 0xE4#8)] } : State).fault = .none ∧
    ({ unpacking with pbuf := [(0, 0xE4#8)] } : State).st = .decoding ∧
    1 < ({ unpacking with pbuf := [(0, 0xE4#8)] } : State).cfg.P ∧
    Memory.read ({ unpacking with pbuf := [(0, 0xE4#8)] } : State).pbuf 1 = none := by decide

theorem witness_PackedFrameDecodesToItself :
    unpacking.cfg.legal = true ∧ unpacking.fault = .none ∧ unpacking.st = .decoding ∧
    [3#2, 2#2, 1#2, 0#2, 0#2, 1#2, 2#2, 3#2].length = unpacking.cfg.N ∧
    ∀ j, j < unpacking.cfg.P → ∃ s0 s1 s2 s3 : Sample,
      [3#2, 2#2, 1#2, 0#2, 0#2, 1#2, 2#2, 3#2][4 * j]? = some s0 ∧
      [3#2, 2#2, 1#2, 0#2, 0#2, 1#2, 2#2, 3#2][4 * j + 1]? = some s1 ∧
      [3#2, 2#2, 1#2, 0#2, 0#2, 1#2, 2#2, 3#2][4 * j + 2]? = some s2 ∧
      [3#2, 2#2, 1#2, 0#2, 0#2, 1#2, 2#2, 3#2][4 * j + 3]? = some s3 ∧
      Memory.read unpacking.pbuf j = some (packSamples s0 s1 s2 s3) := by
  refine ⟨by decide, by decide, by decide, by decide, fun j hj => ?_⟩
  have hj : j < 2 := hj
  interval_cases j
  · exact ⟨3#2, 2#2, 1#2, 0#2, by decide⟩
  · exact ⟨0#2, 1#2, 2#2, 3#2, by decide⟩

theorem witness_PixelComesFromItsPayloadField :
    Inv presenting ∧ presenting.fault = .none ∧ presenting.st = .presenting ∧ 1 < presenting.cfg.H ∧
    3 < presenting.cfg.W :=
  ⟨inv_presenting, by decide⟩

theorem witness_FramePortShowsTheRasterWhilePresenting :
    (presenting.st = .presenting ∧ 7 < presenting.cfg.N ∧ Memory.read presenting.raster 7 = some 3#2) ∧
    fresh.st ≠ .presenting := by decide

/-! ## Control -/

theorem witness_StartIsTheFirstLoopTop :
    (fresh.fault = .none ∧ fresh.st = .idle ∧ fresh.stopPend = false ∧ fresh.reqN = 0) ∧
    (({ fresh with stopPend := true } : State).fault = .none ∧ ({ fresh with stopPend := true } : State).st = .idle ∧
      ({ fresh with stopPend := true } : State).stopPend = true) ∧
    (scanning.fault = .none ∧ scanning.st ≠ .shutdown ∧ scanning.st ≠ .idle) := by decide

theorem witness_StopIsLatchedOrActedOnAtOnce :
    (collecting.fault = .none ∧ collecting.st ≠ .shutdown ∧ collecting.cfg.stopSampling = .loopTop) ∧
    ((withCfg halfway anyStepCfg).fault = .none ∧ (withCfg halfway anyStepCfg).st ≠ .shutdown ∧
      (withCfg halfway anyStepCfg).cfg.stopSampling = .anyStep) := by decide

theorem witness_OpenFailShutsDownBeforeAnyScan :
    (fresh.fault = .none ∧ fresh.st = .idle) ∧
    (presenting.fault = .none ∧ presenting.st ≠ .shutdown ∧ presenting.st ≠ .idle) := by decide

theorem witness_SinkAckIsTheNextLoopTop :
    (presenting.fault = .none ∧ presenting.st = .presenting ∧ presenting.stopPend = false ∧ presenting.reqN = 0) ∧
    (({ presenting with stopPend := true } : State).fault = .none ∧
      ({ presenting with stopPend := true } : State).st = .presenting ∧
      ({ presenting with stopPend := true } : State).stopPend = true) ∧
    (collecting.fault = .none ∧ collecting.st ≠ .shutdown ∧ collecting.st ≠ .presenting) := by decide

theorem witness_LoopTopPollsTheStop :
    (fresh.fault = .none ∧ (fresh.st = .idle ∨ fresh.st = .presenting)) ∧
    (presenting.fault = .none ∧ (presenting.st = .idle ∨ presenting.st = .presenting)) := by decide

theorem witness_MisplacedControlEventsFault :
    (scanning.fault = .none ∧ scanning.st ≠ .shutdown ∧ scanning.st ≠ .idle) ∧
    (fresh.fault = .none ∧ fresh.st ≠ .shutdown ∧ fresh.st ≠ .presenting) ∧ ended.st = .shutdown := by decide

theorem witness_StartAfterResetRequestsOneByte : Config.thisHardware.legal = true ∧ smallCfg.legal = true := by decide

/-! ## Reserved words, and blocks that take no event -/

theorem witness_ReservedRowsRaiseIllegalEvent :
    (scanning.fault = .none ∧ scanning.st ≠ .shutdown) ∧
    (1 ≤ (1#4).toNat ∧ (1#4).toNat ≤ 6 ∧ 1#8 ≠ 0#8) ∧ (1 ≤ (6#4).toNat ∧ (6#4).toNat ≤ 6 ∧ 0xFF#8 ≠ 0#8) := by decide

theorem witness_ExactlyIllegalWordsRaiseIllegalEvent_kind7 :
    (given scanning [.event 0x700#12]).cfg.legal = true ∧ (given scanning [.event 0x700#12]).fault = .none ∧
    (given scanning [.event 0x700#12]).st ≠ .shutdown ∧
    (given scanning [.event 0x700#12]).inputs = .event 0x700#12 :: [] ∧
    7 ≤ ((0x700#12).extractLsb' 8 4).toNat := by decide

theorem witness_ExactlyIllegalWordsRaiseIllegalEvent_data :
    (given scanning [.event 0x601#12]).cfg.legal = true ∧ (given scanning [.event 0x601#12]).fault = .none ∧
    (given scanning [.event 0x601#12]).st ≠ .shutdown ∧
    (given scanning [.event 0x601#12]).inputs = .event 0x601#12 :: [] ∧
    ((0x601#12).extractLsb' 8 4).toNat ≠ 0 ∧ ((0x601#12).extractLsb' 0 8).toNat ≠ 0 := by decide

theorem witness_ExactlyIllegalWordsRaiseIllegalEvent_legal :
    (given scanning [.event 0x600#12]).cfg.legal = true ∧ (given scanning [.event 0x600#12]).fault = .none ∧
    (given scanning [.event 0x600#12]).st ≠ .shutdown ∧
    (given scanning [.event 0x600#12]).inputs = .event 0x600#12 :: [] ∧
    ¬ (7 ≤ ((0x600#12).extractLsb' 8 4).toNat ∨
      (((0x600#12).extractLsb' 8 4).toNat ≠ 0 ∧ ((0x600#12).extractLsb' 0 8).toNat ≠ 0)) ∧
    (after scanning 0x600#12).isSome := by decide

theorem witness_IgnoredEventsChangeNothing :
    (isEventOperation (.shutdownIgnore 8#4 0#8) = true ∧ (ended.st = .shutdown ∨ ended.fault ≠ .none)) ∧
    (isEventOperation .start = true ∧ (faulted.st = .shutdown ∨ faulted.fault ≠ .none)) := by decide

theorem witness_OnlyResetLeavesShutdownOrAFault :
    (given ended [.event 0x300#12, .event 0x800#12]).cfg.legal = true ∧
    ((given ended [.event 0x300#12, .event 0x800#12]).st = .shutdown ∨
      (given ended [.event 0x300#12, .event 0x800#12]).fault ≠ .none) ∧
    (∀ x, x ∈ (given ended [.event 0x300#12, .event 0x800#12]).inputs → x ≠ .reset) ∧
    2 ≤ (given ended [.event 0x300#12, .event 0x800#12]).inputs.length := by decide

/-! ## What operations leave alone: operations that answer a next state -/

theorem witness_PbufIsWrittenOnlyByAccStore :
    exec (.accStore 0x1B#8) halfway =
      .next { halfway with cnt := 2, rspCnt := 2, pbuf := [(0, 0xE4#8), (1, 0x1B#8)] } ∧
    exec .stop halfway = .next { halfway with stopPend := true } ∧ (∀ d, Instr.stop ≠ .accStore d) :=
  ⟨rfl, rfl, fun _ => Instr.noConfusion⟩

theorem witness_RasterIsWrittenOnlyByDecode :
    exec .sinkAck presenting = .next { presenting with st := .syncing } ∧ Instr.sinkAck ≠ .decode :=
  ⟨rfl, Instr.noConfusion⟩

theorem witness_CountIsWrittenOnlyBySyncHitAndAccStore :
    exec .syncHit { scanning with cnt := 17 } =
      .next { scanning with cnt := 0, rspCnt := 1, st := .accumulating } ∧
    ({ scanning with cnt := 0, rspCnt := 1, st := .accumulating } : State).cnt ≠
      ({ scanning with cnt := 17 } : State).cnt :=
  ⟨rfl, by decide⟩

theorem witness_RequestRegistersWrittenOnlyByTheirRules :
    (exec .issue { scanning with reqN := 0 } = .next { scanning with outs := [.rdReq 1] } ∧
      ({ scanning with outs := [.rdReq 1] } : State).reqN ≠ ({ scanning with reqN := 0 } : State).reqN) ∧
    (exec (.syncDiscard 0x41#8) scanning = .next { scanning with rspCnt := 1 } ∧
      ({ scanning with rspCnt := 1 } : State).rspCnt ≠ scanning.rspCnt) ∧
    (exec .syncEnd { scanning with rspCnt := 1 } = .next { scanning with reqN := 0, rspCnt := 0 } ∧
      ({ scanning with reqN := 0, rspCnt := 0 } : State).reqN ≠ scanning.reqN) ∧
    (exec .srcClosed scanning =
        .next { scanning with st := .shutdown, exit := .sourceClosed, reqN := 0, outs := [.release .sourceClosed] } ∧
      (0 : Nat) ≠ scanning.reqN) :=
  ⟨⟨rfl, by decide⟩, ⟨rfl, by decide⟩, ⟨rfl, by decide⟩, rfl, by decide⟩

theorem witness_StopPendIsSetOnlyByStop :
    exec .stop scanning = .next { scanning with stopPend := true } ∧
    ({ scanning with stopPend := true } : State).stopPend ≠ scanning.stopPend :=
  ⟨rfl, by decide⟩

theorem witness_ExitIsWrittenOnlyOnShutdownEntry :
    (exec .openFail fresh =
        .next { fresh with st := .shutdown, exit := .sourceUnavailable, outs := [.release .sourceUnavailable] } ∧
      ExitCode.sourceUnavailable ≠ fresh.exit) ∧
    (exec .stop ended = .next ended ∧ ended.st = .shutdown) :=
  ⟨⟨rfl, by decide⟩, rfl, by decide⟩

theorem witness_FaultIsStickyUnderEveryOperation :
    (exec .sinkAck faulted = .next faulted ∧ faulted.fault ≠ .none) ∧
    (exec .sinkAck fresh = .next { fresh with fault := .badAck, outs := [.fault .badAck] } ∧
      FaultCode.badAck ≠ fresh.fault) :=
  ⟨⟨rfl, by decide⟩, rfl, by decide⟩

theorem witness_OperationsKeepConfigurationInputsAndTrace :
    exec (.lum 2#2) fresh = .next { fresh with fnOut := .level 0xAA#8 } ∧
    ({ fresh with fnOut := .level 0xAA#8 } : State).fnOut ≠ fresh.fnOut :=
  ⟨rfl, by decide⟩

theorem witness_AccumulatorIsBlindToContent :
    halfway.st = .accumulating ∧ exec (.accStore 0x26#8) halfway =
      .next { halfway with cnt := 2, rspCnt := 2, pbuf := [(0, 0xE4#8), (1, 0x26#8)] } :=
  ⟨rfl, rfl⟩

/-! ## Where operations run -/

theorem witness_OperationsCompleteExactlyWhereApplicable :
    applicable .syncHit scanning = true ∧ applicable .syncHit fresh = false ∧
    applicable .decode unpacking = true ∧ applicable .decode full = false := by decide

theorem witness_EveryStepUnderALegalConfigurationCompletes :
    State.reset.cfg.legal = true ∧ State.reset.inputs = [] := by decide

theorem witness_SettleLeavesNoInternalOperationEnabled :
    ((({ halfway with reqN := 0, rspCnt := 0 } : State).st = .accumulating →
        ({ halfway with reqN := 0, rspCnt := 0 } : State).reqN = 0 →
        ({ halfway with reqN := 0, rspCnt := 0 } : State).cnt < halfway.cfg.P) ∧
      settle { halfway with reqN := 0, rspCnt := 0 } =
        .next { halfway with reqN := 1, rspCnt := 0, outs := [.rdReq 1] }) ∧
    ((full.st = .accumulating → full.reqN = 0 → full.cnt < full.cfg.P) ∧ full.cnt = full.cfg.P ∧
      settle full = .next full) :=
  ⟨⟨by decide, rfl⟩, by decide, by decide, rfl⟩

/-! ## Encoding -/

theorem witness_EncodedOperationDecodesToItself :
    (wellFormed 0x26#8 (.syncDiscard 0xFF#8) = true ∧ selectedIn .syncing false (.syncDiscard 0xFF#8) = true ∧
      encode 0x26#8 (.syncDiscard 0xFF#8) = some 0x0FF#12) ∧
    (wellFormed 0x26#8 (.illegalData 6#4 1#8) = true ∧ selectedIn .idle false (.illegalData 6#4 1#8) = true ∧
      encode 0x26#8 (.illegalData 6#4 1#8) = some 0x601#12) ∧
    (wellFormed 0x26#8 (.shutdownIgnore 15#4 0xFF#8) = true ∧
      selectedIn .idle true (.shutdownIgnore 15#4 0xFF#8) = true ∧
      encode 0x26#8 (.shutdownIgnore 15#4 0xFF#8) = some 0xFFF#12) := by decide

/-! ## Outputs and the whole machine -/

theorem witness_StatusWordShowsTheRegisters : Inv presenting := inv_presenting

theorem witness_FramePortIsStableWhilePresenting :
    presenting.st = .presenting ∧ ({ presenting with stopPend := true } : State).st = .presenting ∧
    step (given presenting [.event 0x400#12]) = .next { presenting with stopPend := true } :=
  ⟨rfl, rfl, rfl⟩

theorem witness_InvariantIsKeptByEveryStep :
    Inv (given scanning [.event 0x026#12]) ∧ step (given scanning [.event 0x026#12]) = .next justHit :=
  ⟨inv_withInputs inv_scanning _, rfl⟩

theorem witness_InvariantHoldsAfterReset : smallCfg.legal = true ∧ anyStepCfg.legal = true := by decide

theorem witness_EventFaultsExactlyWhenTheHostBreaksItsContract :
    (Inv (given scanning [.event 0x026#12]) ∧ scanning.fault = .none ∧ scanning.st ≠ .shutdown ∧
      step (given scanning [.event 0x026#12]) = .next justHit ∧
      hostDuty (given scanning [.event 0x026#12]) 0x026#12 = true) ∧
    (Inv (given justHit [.event 0x000#12]) ∧ justHit.fault = .none ∧ justHit.st ≠ .shutdown ∧
      step (given justHit [.event 0x000#12]) =
        .next { justHit with fault := .overlong, outs := [.fault .overlong] } ∧
      hostDuty (given justHit [.event 0x000#12]) 0x000#12 = false) :=
  ⟨⟨inv_withInputs inv_scanning _, by decide, by decide, rfl, by decide⟩,
    inv_withInputs inv_justHit _, by decide, by decide, rfl, by decide⟩

theorem witness_UnwrittenFaultIsNeverRaised :
    Inv (given halfway [.event 0x01B#12]) ∧ halfway.fault ≠ .unwritten ∧
    step (given halfway [.event 0x01B#12]) = .next full :=
  ⟨inv_withInputs inv_halfway _, by decide, rfl⟩

theorem witness_LifecycleMovesInOrder :
    Inv (given full [.event 0x100#12]) ∧ full.fault = .none ∧
    (given full [.event 0x100#12]).inputs = .event 0x100#12 :: [] ∧
    step (given full [.event 0x100#12]) =
      .next { presenting with outs := [.frame [3#2, 2#2, 1#2, 0#2, 0#2, 1#2, 2#2, 3#2]] } :=
  ⟨inv_withInputs inv_full _, rfl, rfl, rfl⟩

theorem witness_FrameComesOnlyFromACompletePayload :
    Inv (given full [.event 0x100#12]) ∧
    step (given full [.event 0x100#12]) =
      .next { presenting with outs := full.outs ++ [.frame [3#2, 2#2, 1#2, 0#2, 0#2, 1#2, 2#2, 3#2]] } ∧
    Output.frame [3#2, 2#2, 1#2, 0#2, 0#2, 1#2, 2#2, 3#2] ∈ [Output.frame [3#2, 2#2, 1#2, 0#2, 0#2, 1#2, 2#2, 3#2]] :=
  ⟨inv_withInputs inv_full _, rfl, by decide⟩

theorem witness_StopAndClosureInEitherOrder_stop_first :
    Inv (given scanning [.event 0x400#12, .event 0x200#12]) ∧ scanning.fault = .none ∧ scanning.reqN ≠ 0 ∧
    scanning.cfg.stopSampling = .loopTop :=
  ⟨inv_withInputs inv_scanning _, by decide⟩

theorem witness_StopAndClosureInEitherOrder_closure_first :
    Inv (given full [.event 0x200#12, .event 0x400#12]) ∧ full.fault = .none ∧ full.reqN ≠ 0 :=
  ⟨inv_withInputs inv_full _, by decide⟩

theorem witness_StopAndClosureInEitherOrder_any_step :
    Inv (given (withCfg scanning anyStepCfg) [.event 0x400#12, .event 0x200#12]) ∧
    (withCfg scanning anyStepCfg).fault = .none ∧ (withCfg scanning anyStepCfg).reqN ≠ 0 ∧
    (withCfg scanning anyStepCfg).cfg.stopSampling = .anyStep :=
  ⟨⟨by decide, by decide, by decide, by decide, by decide, by decide, by decide, fun _ =>
    ⟨by decide, by decide, by decide, by decide, fun h => absurd h (by decide), by decide, by decide, by decide⟩⟩,
    by decide⟩

theorem witness_StopAndClosureInEitherOrder_presenting :
    Inv (given presenting [.event 0x400#12, .event 0x600#12]) ∧ presenting.fault = .none ∧
    presenting.st = .presenting ∧ presenting.cfg.stopSampling = .loopTop :=
  ⟨inv_withInputs inv_presenting _, by decide⟩

/-- Fragments 1, 0, then the rest (95_test_vectors.md 1.8, P2). -/
theorem witness_PayloadIsIndependentOfItsSplitIntoResponses :
    Inv (given collecting (responsesInputs [[0xE4#8], [], [0x1B#8]])) ∧ collecting.fault = .none ∧
    collecting.st = .accumulating ∧ collecting.cnt = 0 ∧ collecting.rspCnt = 0 ∧
    collecting.reqN = collecting.cfg.P ∧
    ([[0xE4#8], []].flatten ++ [0x1B#8]).length = collecting.cfg.P ∧
    ([[0xE4#8], []] : List (List Byte)).flatten.length < collecting.cfg.P ∧
    (given collecting (responsesInputs [[0xE4#8], [], [0x1B#8]])).inputs =
      responsesInputs ([[0xE4#8], []] ++ [[0x1B#8]]) ++ [] :=
  ⟨inv_withInputs inv_collecting _, by decide⟩

/-- Program P1's prefix: a byte of garbage, an empty read, the sentinel. -/
theorem witness_ScanSkipsExactlyTheGarbagePrefix :
    scanning.cfg.legal = true ∧ scanning.fault = .none ∧ scanning.st = .syncing ∧ scanning.reqN = 1 ∧
    scanning.rspCnt = 0 ∧
    (∀ c, c ∈ [[0x41#8], []] → c.length ≤ 1 ∧ scanning.cfg.S ∉ c) ∧
    (given scanning (responsesInputs [[0x41#8], []] ++ [.event (dataWord 0x26#8)])).inputs =
      responsesInputs [[0x41#8], []] ++ .event (dataWord scanning.cfg.S) :: [] := by decide

/-- The events of a whole frame of two bytes: the sentinel, its RD_END, the payload, its RD_END. -/
def frameInputs : List Input := responsesInputs [[0x26#8], [0xE4#8, 0x1B#8]]

/-- What a whole frame leaves of `scanning`. -/
def framed : State :=
  { presenting with outs := [.rdReq 2, .frame [3#2, 2#2, 1#2, 0#2, 0#2, 1#2, 2#2, 3#2]] }

/-- A whole frame, after reset and after an earlier frame's leavings. -/
theorem witness_EarlierFramesCannotBeSeenInLaterOutputs :
    Inv (given scanning frameInputs) ∧
    Inv (given { scanning with pbuf := [(1, 0xFF#8)], raster := [(0, 3#2)], cnt := 2 } frameInputs) ∧
    (given scanning frameInputs).st = .syncing ∧
    Host.Core.run core 5 (given scanning frameInputs) = .next framed ∧
    Host.Core.run core 5 (given { scanning with pbuf := [(1, 0xFF#8)], raster := [(0, 3#2)], cnt := 2 } frameInputs) =
      .next framed :=
  ⟨inv_withInputs inv_scanning _, inv_withInputs ⟨by decide, by decide, by decide, by decide, by decide, by decide,
    by decide, fun _ => ⟨by decide, by decide, by decide, by decide, fun h => absurd h (by decide), by decide,
      by decide, by decide⟩⟩ _, rfl, rfl, rfl⟩

end Sys2Proof.Tests
end

/-! ## Proofs: the scope of the block (00_scope.md) -/

namespace Sys2Proof

/-- The legality check decides the condition of 00_scope.md R5. -/
theorem Config.legal_eq_true_iff {c : Config} :
    c.legal = true ↔ 1 ≤ c.W ∧ 1 ≤ c.H ∧ c.W * c.H % 4 = 0 := by
  simp [Config.legal, and_assoc]

end Sys2Proof

namespace Sys2Proof.Machine

/-! ### Which configurations are taken -/

theorem boot_of_legal {c : Config} (h : c.legal = true) : boot c = .next (State.resetWith c) := if_pos h

theorem boot_of_not_legal {c : Config} (h : ¬ c.legal = true) : boot c = .refused .illegalConfiguration := if_neg h

/-- A state that holds an illegal configuration takes no step, whatever its inputs (log entry 4). -/
theorem step_of_not_legal {s : State} (h : ¬ s.cfg.legal = true) : step s = .refused .illegalConfiguration := if_neg h

/-- Settles O4: `boot` and `step` both branch on the legality check, which decides R5's condition. -/
theorem illegalConfigurationIsRefused : Obligations.IllegalConfigurationIsRefused :=
  ⟨fun _ h => boot_of_legal (Config.legal_eq_true_iff.mpr h),
    fun _ h => boot_of_not_legal (mt Config.legal_eq_true_iff.mp h),
    fun _ h => step_of_not_legal (mt Config.legal_eq_true_iff.mp h)⟩

/-! ### What every operation leaves alone -/

section
variable {i : Instr} {s t : State}

/-- The configuration is fixed for the run (00_scope.md R4). -/
theorem Effect.cfg_eq (h : Effect i s t) : t.cfg = s.cfg := by
  cases h <;> rfl

/-- Operations do not look at what the host has yet to deliver. -/
theorem Effect.inputs_eq (h : Effect i s t) : t.inputs = s.inputs := by
  cases h <;> rfl

/-- The trace grows by at most one output (00_scope.md R9): none from an outcome that only updates registers and
arrays, one from an outcome that emits. -/
theorem Effect.outs_eq_or_append (h : Effect i s t) : t.outs = s.outs ∨ ∃ o, t.outs = s.outs ++ [o] := by
  cases h with
  | ignored | counted | discarded | hit | stored | ended | completed | scans | latched | computed => exact .inl rfl
  | noRequest | overlong | storeFull | badStart | badOpenFail | badAck | illegal | undecodable =>
    exact .inr ⟨.fault _, rfl⟩
  | closed | stops | stopsNow | unavailable => exact .inr ⟨.release _, rfl⟩
  | issued => exact .inr ⟨.rdReq _, rfl⟩
  | decoded => exact .inr ⟨.frame _, rfl⟩

/-- Only a pure function gives a result, and it changes nothing else (log entry 5). -/
theorem Effect.of_fnOut_ne (h : Effect i s t) (hne : t.fnOut ≠ s.fnOut) :
    t = { s with fnOut := t.fnOut } ∧
      ((∃ b k, i = .field b k) ∨ (∃ b, i = .unpack b) ∨ (∃ x, i = .lum x) ∨ ∃ x, i = .rgb x) := by
  cases h with
  | computed r hi => exact ⟨rfl, hi⟩
  | _ => exact absurd rfl hne

end

/-- Settles O42, by cases on the effect an operation has. -/
theorem operationsKeepConfigurationInputsAndTrace : Obligations.OperationsKeepConfigurationInputsAndTrace := by
  intro i s t h
  have he : Effect i s t := exec_effect h
  exact ⟨he.cfg_eq, he.inputs_eq, he.outs_eq_or_append, he.of_fnOut_ne⟩

end Sys2Proof.Machine

/-! ## Proofs: the state of the block (10_state.md) -/

namespace Sys2Proof.Machine

/-! ### The output words and the frame port -/

section
variable {s : State} {i : Nat}

theorem State.frameValid_iff : s.frameValid = true ↔ s.st = .presenting := by simp [State.frameValid]

theorem State.frameValid_eq_false : s.frameValid = false ↔ s.st ≠ .presenting := by simp [State.frameValid]

/-- In PRESENTING the frame port carries the raster (10_state.md R30). -/
theorem State.frameSample_of_presenting (h : s.st = .presenting) (hi : i < s.cfg.N) :
    s.frameSample i = Memory.read s.raster i := by
  simp [State.frameSample, State.frameValid_iff.mpr h, hi]

/-- Outside PRESENTING the model's view of the frame port gives no value (log entry 13). -/
theorem State.frameSample_of_not_presenting (h : s.st ≠ .presenting) : s.frameSample i = none := by
  simp [State.frameSample, State.frameValid_eq_false.mpr h]

end

/-- Settles O23: the three views of the frame port are maps over the sample, which is the raster's entry in PRESENTING
and none elsewhere. -/
theorem framePortShowsTheRasterWhilePresenting : Obligations.FramePortShowsTheRasterWhilePresenting := by
  constructor
  · intro s i x hst hi hx
    have hsample : s.frameSample i = some x := (State.frameSample_of_presenting hst hi).trans hx
    exact ⟨State.frameValid_iff.mpr hst, hsample, by simp [State.frameLum, hsample],
      by simp [State.frameRgb, hsample, rgbOf]⟩
  · intro s i hst
    have hsample : s.frameSample i = none := State.frameSample_of_not_presenting hst
    exact ⟨State.frameValid_eq_false.mpr hst, hsample, by simp [State.frameLum, hsample],
      by simp [State.frameRgb, hsample]⟩

/-- A field above the lowest part of a concatenation is a field of what stands above that part. -/
theorem extractLsb'_append_high {v w start len : Nat} {hi : BitVec v} {lo : BitVec w} {y : BitVec len}
    (h : hi.extractLsb' start len = y) : (hi ++ lo).extractLsb' (start + w) len = y := by
  rw [BitVec.extractLsb'_append_eq_of_le (Nat.le_add_left w start), Nat.add_sub_cancel, h]

/-- The fields of the status word, from bit 0 up (10_state.md R36). -/
theorem State.status_fields (s : State) :
    s.status.extractLsb' 0 3 = stCode s.st ∧ s.status.extractLsb' 3 1 = BitVec.ofBool s.stopPend ∧
    s.status.extractLsb' 4 2 = exitCode s.exit ∧ s.status.extractLsb' 6 3 = faultCode s.fault ∧
    s.status.extractLsb' 9 1 = BitVec.ofBool s.frameValid ∧
    s.status.extractLsb' 10 1 = BitVec.ofBool s.srcRelease := by
  have low {v w : Nat} {hi : BitVec v} {lo : BitVec w} : (hi ++ lo).extractLsb' 0 w = lo :=
    BitVec.extractLsb'_append_eq_right
  refine ⟨low, ?_, ?_, ?_, ?_, ?_⟩
  · exact extractLsb'_append_high low
  · exact extractLsb'_append_high (extractLsb'_append_high low)
  · exact extractLsb'_append_high (extractLsb'_append_high (extractLsb'_append_high low))
  · exact extractLsb'_append_high (extractLsb'_append_high (extractLsb'_append_high (extractLsb'_append_high low)))
  · exact extractLsb'_append_high (extractLsb'_append_high (extractLsb'_append_high (extractLsb'_append_high
     (extractLsb'_append_high BitVec.extractLsb'_eq_self))))

/-- A count up to `P` is shown exactly by a word of `CNT_W` bits (R6, R36). -/
theorem toNat_ofNat_cntW {cfg : Config} {n : Nat} (h : n ≤ cfg.P) : (BitVec.ofNat cfg.cntW n).toNat = n := by
  rw [BitVec.toNat_ofNat, Nat.mod_eq_of_lt (Nat.lt_of_le_of_lt h (P_lt_two_pow_cntW cfg))]

/-- Settles O49: the status word is its fields, and the invariant bounds the counts by `P`. -/
theorem statusWordShowsTheRegisters : Obligations.StatusWordShowsTheRegisters := by
  refine ⟨fun s => ?_, fun s hs => ?_, fun cfg => ?_⟩
  · obtain ⟨hst, hstop, hexit, hfault, hvalid, hrelease⟩ := s.status_fields
    refine ⟨hst.trans ?_, hstop, hexit.trans ?_, hfault.trans ?_, hvalid, hrelease⟩
    · cases s.st <;> rfl
    · cases s.exit <;> rfl
    · cases s.fault <;> rfl
  · exact ⟨toNat_ofNat_cntW hs.cntLe, toNat_ofNat_cntW hs.reqLe,
      toNat_ofNat_cntW (Nat.le_trans hs.rspLe hs.reqLe)⟩
  · have hreset : (State.resetWith cfg).status = State.reset.status := rfl
    exact ⟨hreset.trans (by decide), toNat_ofNat_cntW (Nat.zero_le _), toNat_ofNat_cntW (Nat.zero_le _),
      toNat_ofNat_cntW (Nat.zero_le _)⟩

/-! ### Which operations write a register -/

/-- Only START, SINK_ACK and LOOP_TOP reach the loop top, in IDLE or PRESENTING (44_control.md R192, R195, R196). -/
theorem reachesLoopTop_cases {st : Lifecycle} {i : Instr} (h : reachesLoopTop st i = true) :
    (i = .start ∨ i = .sinkAck ∨ i = .loopTop) ∧ (st = .idle ∨ st = .presenting) := by
  cases i with
  | start => exact ⟨.inl rfl, .inl (of_decide_eq_true h)⟩
  | sinkAck => exact ⟨.inr (.inl rfl), .inr (of_decide_eq_true h)⟩
  | loopTop => exact ⟨.inr (.inr rfl), of_decide_eq_true h⟩
  | _ => cases h

section
variable {i : Instr} {s t : State}

theorem State.fault_eq_none_of_live (h : s.ignoresEvents = false) : s.fault = .none :=
  (State.ignoresEvents_eq_false.mp h).1

theorem State.st_ne_shutdown_of_live (h : s.ignoresEvents = false) : s.st ≠ .shutdown :=
  (State.ignoresEvents_eq_false.mp h).2

theorem State.live_of_issueEnabled (h : s.issueEnabled = true) : s.ignoresEvents = false := by
  obtain ⟨hf, hst | hst, -⟩ := State.issueEnabled_iff.mp h <;> simp [State.ignoresEvents_eq_false, hf, hst]

theorem State.live_of_decodeEnabled (h : s.decodeEnabled = true) : s.ignoresEvents = false := by
  obtain ⟨hf, hst⟩ := State.decodeEnabled_iff.mp h
  simp [State.ignoresEvents_eq_false, hf, hst]

/-- In SHUTDOWN and in a halted block no operation writes a register (60_exceptions.md R226, R229); a pure function
still gives its result (log entry 5). -/
theorem Effect.eq_of_ignores (h : Effect i s t) (hs : s.ignoresEvents = true) : t = { s with fnOut := t.fnOut } := by
  have notLive : s.ignoresEvents ≠ false := by simp [hs]
  cases h with
  | ignored | computed => rfl
  | issued h => exact absurd (State.live_of_issueEnabled h) notLive
  | decoded h | undecodable h => exact absurd (State.live_of_decodeEnabled h) notLive
  | _ => exact absurd ‹s.ignoresEvents = false› notLive

/-- The writers of `cnt` (10_state.md R22). -/
theorem Effect.of_cnt_ne (h : Effect i s t) (hne : t.cnt ≠ s.cnt) :
    (i = .syncHit ∧ t.cnt = 0) ∨ (∃ d, i = .accStore d ∧ t.cnt = s.cnt + 1) := by
  cases h with
  | hit => exact .inl ⟨rfl, rfl⟩
  | stored => exact .inr ⟨_, rfl, rfl⟩
  | _ => exact absurd rfl hne

/-- The writers of `req_n` and `rsp_cnt`, and what each writes (10_state.md R23, R24): ISSUE, an accepted beat, an
accepted end, an entry to SHUTDOWN. -/
theorem Effect.of_request_ne (h : Effect i s t) (hne : t.reqN ≠ s.reqN ∨ t.rspCnt ≠ s.rspCnt) :
    (i = .issue ∧ t.reqN = s.requestSize ∧ t.rspCnt = 0) ∨
    (((∃ d, i = .syncDiscard d) ∨ i = .syncHit ∨ (∃ d, i = .accStore d) ∨ ∃ d, i = .rdDataCheck d) ∧
      t.reqN = s.reqN ∧ s.reqN ≠ 0 ∧ s.rspCnt ≠ s.reqN ∧ t.rspCnt = s.rspCnt + 1) ∨
    ((i = .syncEnd ∨ i = .accEnd ∨ i = .rdEndCheck) ∧ s.reqN ≠ 0 ∧ t.reqN = 0 ∧ t.rspCnt = 0) ∨
    ((i = .srcClosed ∨ i = .start ∨ i = .stop ∨ i = .openFail ∨ i = .sinkAck ∨ i = .loopTop) ∧
      s.st ≠ .shutdown ∧ t.st = .shutdown ∧ t.reqN = 0 ∧ t.rspCnt = 0) := by
  cases h with
  | issued => exact .inl ⟨rfl, rfl, rfl⟩
  | discarded _ _ _ hr hb => exact .inr (.inl ⟨.inl ⟨_, rfl⟩, rfl, hr, hb, rfl⟩)
  | hit _ _ hr hb => exact .inr (.inl ⟨.inr (.inl rfl), rfl, hr, hb, rfl⟩)
  | stored _ _ hr hb | storeFull _ _ hr hb => exact .inr (.inl ⟨.inr (.inr (.inl ⟨_, rfl⟩)), rfl, hr, hb, rfl⟩)
  | counted _ hr hb => exact .inr (.inl ⟨.inr (.inr (.inr ⟨_, rfl⟩)), rfl, hr, hb, rfl⟩)
  | ended hi _ hr => exact .inr (.inr (.inl ⟨by tauto, hr, rfl, rfl⟩))
  | completed _ _ hr => exact .inr (.inr (.inl ⟨.inr (.inl rfl), hr, rfl, rfl⟩))
  | closed h | stopsNow h | unavailable h =>
    exact .inr (.inr (.inr ⟨by simp, State.st_ne_shutdown_of_live h, rfl, rfl, rfl⟩))
  | stops hi h =>
    have := (reachesLoopTop_cases hi).1
    exact .inr (.inr (.inr ⟨by tauto, State.st_ne_shutdown_of_live h, rfl, rfl, rfl⟩))
  | _ => exact hne.elim (absurd rfl) (absurd rfl)

/-- `stop_pend` is left alone or latched (10_state.md R25). -/
theorem Effect.stopPend_eq_or_latched (h : Effect i s t) :
    t.stopPend = s.stopPend ∨ (t.stopPend = true ∧ i = .stop ∧ s.cfg.stopSampling = .loopTop) := by
  cases h with
  | latched _ hc => exact .inr ⟨rfl, rfl, hc⟩
  | _ => exact .inl rfl

/-- `exit` is written on entry to SHUTDOWN (10_state.md R26, 60_exceptions.md R225). -/
theorem Effect.of_exit_ne (h : Effect i s t) (hne : t.exit ≠ s.exit) :
    s.st ≠ .shutdown ∧ t.st = .shutdown ∧ t.outs = s.outs ++ [.release t.exit] := by
  cases h with
  | closed h | stopsNow h | unavailable h | stops _ h => exact ⟨State.st_ne_shutdown_of_live h, rfl, rfl⟩
  | _ => exact absurd rfl hne

/-- `fault` is written where it was NONE, with its FAULT output (10_state.md R27, 60_exceptions.md R228). -/
theorem Effect.of_fault_ne (h : Effect i s t) (hne : t.fault ≠ s.fault) :
    s.fault = .none ∧ t.outs = s.outs ++ [.fault t.fault] := by
  cases h with
  | noRequest _ h | overlong _ h | storeFull h | badStart _ h | badOpenFail _ h | badAck _ h | illegal _ h =>
    exact ⟨State.fault_eq_none_of_live h, rfl⟩
  | undecodable h => exact ⟨State.fault_eq_none_of_live (State.live_of_decodeEnabled h), rfl⟩
  | _ => exact absurd rfl hne

end

/-- Settles O37, by cases on the effect an operation has. -/
theorem countIsWrittenOnlyBySyncHitAndAccStore : Obligations.CountIsWrittenOnlyBySyncHitAndAccStore :=
  fun _ _ _ h hne => (exec_effect h).of_cnt_ne hne

/-- Settles O38, by cases on the effect an operation has; ISSUE writes the size of R100. -/
theorem requestRegistersWrittenOnlyByTheirRules : Obligations.RequestRegistersWrittenOnlyByTheirRules :=
  fun _ _ _ h hne => (exec_effect h).of_request_ne hne

/-- Settles O39: `stop_pend` is left alone or latched. -/
theorem stopPendIsSetOnlyByStop : Obligations.StopPendIsSetOnlyByStop := by
  intro i s t h
  rcases (exec_effect h).stopPend_eq_or_latched with heq | ⟨hset, hstop, hloop⟩
  · exact ⟨fun hp => heq.trans hp, fun hne => absurd heq hne⟩
  · exact ⟨fun _ => hset, fun _ => ⟨hstop, hloop⟩⟩

/-- Settles O40: the effects that write `exit` enter SHUTDOWN, and in SHUTDOWN no register is written. -/
theorem exitIsWrittenOnlyOnShutdownEntry : Obligations.ExitIsWrittenOnlyOnShutdownEntry := by
  intro i s t h
  have he : Effect i s t := exec_effect h
  refine ⟨he.of_exit_ne, fun hst => ?_⟩
  rw [he.eq_of_ignores (State.ignoresEvents_iff.mpr (.inr hst))]
  exact ⟨rfl, hst⟩

/-- Settles O41: in a halted block no register is written, and the effects that write `fault` emit it. -/
theorem faultIsStickyUnderEveryOperation : Obligations.FaultIsStickyUnderEveryOperation := by
  intro i s t h
  have he : Effect i s t := exec_effect h
  refine ⟨fun hf => ?_, he.of_fault_ne⟩
  rw [he.eq_of_ignores (State.ignoresEvents_iff.mpr (.inl hf))]

/-! ### The invariant at reset -/

/-- The reset state is IDLE with nothing requested, stored or decoded (R34, 70_reset_and_hazards.md R260). -/
theorem inv_resetWith {cfg : Config} (h : cfg.legal = true) : Inv (State.resetWith cfg) where
  legal := h
  cntLe := Nat.zero_le _
  reqLe := Nat.zero_le _
  rspLe := Nat.le_refl _
  pbufWf := Memory.wf_nil _
  rasterWf := Memory.wf_nil _
  anyStepNoPend _ := rfl
  live _ := by constructor <;> simp

/-- Settles O52: this hardware's configuration is one of the legal ones. -/
theorem invariantHoldsAfterReset : Obligations.InvariantHoldsAfterReset :=
  ⟨fun _ => inv_resetWith, inv_resetWith (by decide)⟩

end Sys2Proof.Machine

namespace Sys2Proof.Laws

theorem selectedIn_decodeRdData {S : Byte} {st : Lifecycle} (d : Byte) (hs : st ≠ .shutdown) :
    selectedIn st false (decodeRdData S st d) = true := by
  cases st with
  | shutdown => exact absurd rfl hs
  | syncing => by_cases hd : d = S <;> simp [decodeRdData, hd, selectedIn]
  | _ => rfl

theorem selectedIn_decodeRdEnd {st : Lifecycle} (hs : st ≠ .shutdown) :
    selectedIn st false (decodeRdEnd st) = true := by
  cases st with
  | shutdown => exact absurd rfl hs
  | _ => rfl

/-- The row a word selects stands in its cell of 30_encoding.md R77. -/
theorem selectedIn_decodeEvent (S : Byte) (st : Lifecycle) (halted : Bool) (e : EventWord) :
    selectedIn st halted (decodeEvent S st halted e) = true := by
  by_cases hi : halted = true ∨ st = .shutdown
  · simpa [decodeEvent_ignored e hi, selectedIn] using hi
  · obtain ⟨hh, hs⟩ := not_or.mp hi
    obtain rfl : halted = false := eq_false_of_ne_true hh
    cases hw : illegalWord e
    · obtain ⟨h1, h2, h3, h4, h5, h6⟩ := decodeEvent_fixed (S := S) hs
      rcases legalWord_cases hw with ⟨d, rfl⟩ | rfl | rfl | rfl | rfl | rfl | rfl
      · rw [decodeEvent_data d hs, selectedIn_decodeRdData d hs]
      · rw [h1, selectedIn_decodeRdEnd hs]
      · simp [h2, selectedIn, hs]
      · rw [h3]
        split <;> simp [selectedIn, *]
      · simp [h4, selectedIn, hs]
      · rw [h5]
        split <;> simp [selectedIn, *]
      · rw [h6]
        split <;> simp [selectedIn, *]
    · rw [decodeEvent_illegal hs hw, decodeIllegal]
      split
      · simp [selectedIn, hs]
      · split <;> simp [selectedIn, hs]

end Sys2Proof.Laws

namespace Sys2Proof.Machine

/-! ### The invariant's bounds under every operation -/

/-- The clauses of `Inv` that hold whether or not a fault is recorded. -/
structure Bounded (s : State) : Prop where
  legal : s.cfg.legal = true
  cntLe : s.cnt ≤ s.cfg.P
  reqLe : s.reqN ≤ s.cfg.P
  rspLe : s.rspCnt ≤ s.reqN
  pbufWf : Memory.wf s.cfg.P s.pbuf = true
  rasterWf : Memory.wf s.cfg.N s.raster = true
  anyStepNoPend : s.cfg.stopSampling = .anyStep → s.stopPend = false

section
variable {i : Instr} {s t u : State}

theorem inv_iff : Inv s ↔ Bounded s ∧ (s.fault = .none → LiveInv s) :=
  ⟨fun h => ⟨{ h with }, h.live⟩, fun ⟨hb, hl⟩ => { hb with live := hl }⟩

/-- ISSUE asks for at most a payload (40_source_port.md R100, 10_state.md R23). -/
theorem State.requestSize_le (h : s.cfg.legal = true) : s.requestSize ≤ s.cfg.P := by
  unfold State.requestSize
  split
  · exact P_pos h
  · exact Nat.sub_le _ _

/-- The samples of a payload of `P` bytes fill the raster (43_unpacker.md R162). -/
theorem unpackPayload_length_eq_N {cfg : Config} {m : Memory 8} {bs : List Byte} (h : cfg.legal = true)
    (hr : Memory.readRange m 0 cfg.P = some bs) : (unpackPayload bs).length = cfg.N := by
  rw [unpackPayload_length, (Memory.readRange_eq_some.mp hr).1, four_mul_P h]

/-- Every operation keeps the bounds. -/
theorem Effect.bounded (h : Effect i s t) (hb : Bounded s) : Bounded t := by
  have beatFits : s.rspCnt ≠ s.reqN → s.rspCnt + 1 ≤ s.reqN := Nat.lt_of_le_of_ne hb.rspLe
  cases h with
  | counted | discarded | storeFull => exact { hb with rspLe := beatFits ‹_› }
  | hit => exact { hb with cntLe := Nat.zero_le _, rspLe := beatFits ‹_› }
  | stored _ _ _ hb' hc =>
    exact { hb with cntLe := hc, rspLe := beatFits hb', pbufWf := Memory.wf_write _ hb.pbufWf hc }
  | ended | completed | closed | stops | stopsNow | unavailable =>
    exact { hb with reqLe := Nat.zero_le _, rspLe := Nat.le_refl _ }
  | latched _ hc => exact { hb with anyStepNoPend := fun ha => by cases hc.symm.trans ha }
  | issued => exact { hb with reqLe := State.requestSize_le hb.legal, rspLe := Nat.zero_le _ }
  | decoded _ hr =>
    exact { hb with rasterWf := Memory.wf_ofValues _ (Nat.le_of_eq (unpackPayload_length_eq_N hb.legal hr)) }
  | _ => exact { hb with }

/-! ### Settle, and events a block ignores -/

theorem settle_of_issueEnabled (h : s.issueEnabled = true) :
    settle s = .next ({ s with reqN := s.requestSize, rspCnt := 0 }.emit (.rdReq s.requestSize)) := by
  rcases settle_cases s with ⟨hd, -⟩ | ⟨-, -, e⟩ | ⟨-, hn, -⟩
  · obtain ⟨-, hst⟩ := State.decodeEnabled_iff.mp hd
    simp [State.issueEnabled, hst] at h
  · rw [e, execIssue_of_enabled h]
  · simp [hn] at h

theorem settle_of_decodeEnabled {bs : List Byte} (h : s.decodeEnabled = true)
    (hr : Memory.readRange s.pbuf 0 s.cfg.P = some bs) :
    settle s = .next (({ s with raster := Memory.ofValues 0 (unpackPayload bs), st := .presenting } : State).emit
      (.frame (unpackPayload bs))) := by
  simp [settle, State.enabledOperation, h, exec, execDecode, onlyIf, hr]

/-- A halted block, and SHUTDOWN, settle as they are. -/
theorem settle_of_ignores (h : s.ignoresEvents = true) : settle s = .next s := by
  rcases settle_cases s with ⟨hd, -⟩ | ⟨-, hi, -⟩ | ⟨-, -, e⟩
  · simp [State.live_of_decodeEnabled hd] at h
  · simp [State.live_of_issueEnabled hi] at h
  · exact e

/-- A block that ignores events takes each of them without a change (60_exceptions.md R226, R229). -/
theorem takeEvent_of_ignores {e : EventWord} (h : s.ignoresEvents = true) : takeEvent s e = .next s := by
  have hsel : s.selects e = .shutdownIgnore (eventKind e) (eventData e) := by
    refine Laws.decodeEvent_ignored e ?_
    rwa [State.halted_iff, ← State.ignoresEvents_iff]
  have hexec : exec (s.selects e) s = .next s := by
    rw [hsel]
    exact unlessIgnored_of_ignores h _
  exact takeEvent_eq_next.mpr ⟨s, hexec, settle_of_ignores h⟩

/-- Settle has the effect of DECODE or of ISSUE, or none (44_control.md R191). -/
theorem settle_effect (h : settle s = .next t) : Effect .decode s t ∨ Effect .issue s t ∨ t = s := by
  rcases settle_cases s with ⟨-, e⟩ | ⟨-, -, e⟩ | ⟨-, -, e⟩ <;> rw [e] at h
  · exact .inl (execDecode_effect h)
  · exact .inr (.inl (execIssue_effect h))
  · cases h
    exact .inr (.inr rfl)

/-- One event keeps the bounds: its operation does, and so does settle's. -/
theorem takeEvent_bounded {e : EventWord} (hb : Bounded s) (h : takeEvent s e = .next t) : Bounded t := by
  obtain ⟨u, hu, ht⟩ := takeEvent_eq_next.mp h
  have hbu : Bounded u := (exec_effect hu).bounded hb
  rcases settle_effect ht with he | he | rfl
  · exact he.bounded hbu
  · exact he.bounded hbu
  · exact hbu

/-! ### Consequences of the items of R34 -/

theorem LiveInv.reqN_eq_zero (h : LiveInv s) (hs : s.st ≠ .syncing) (ha : s.st ≠ .accumulating) : s.reqN = 0 := by
  have hnot : ¬ 1 ≤ s.reqN := mt h.requestIff.mpr (not_or.mpr ⟨hs, ha⟩)
  omega

theorem LiveInv.exit_eq_none (h : LiveInv s) (hs : s.st ≠ .shutdown) : s.exit = .none :=
  not_not.mp (mt h.exitIff.mp hs)

/-- A beat that is accepted in ACCUMULATING belongs to a request issued there, so there is room for it (R35). -/
theorem LiveInv.beat_fits (h : LiveInv s) (hst : s.st = .accumulating) (hle : s.rspCnt ≤ s.reqN)
    (hb : s.rspCnt ≠ s.reqN) : s.reqN + s.cnt = s.cfg.P + s.rspCnt ∧ s.rspCnt ≤ s.cnt ∧ s.cnt < s.cfg.P := by
  rcases h.countFollowsBeats hst with ⟨-, h1, h2⟩ | ⟨h1, h2⟩ <;> omega

/-- Where R34 holds no internal operation is enabled. -/
theorem LiveInv.settle_eq (h : LiveInv s) : settle s = .next s := by
  rcases settle_cases s with ⟨hd, -⟩ | ⟨-, hi, -⟩ | ⟨-, -, e⟩
  · exact absurd (State.decodeEnabled_iff.mp hd).2 h.notDecoding
  · obtain ⟨-, hst, hr⟩ := State.issueEnabled_iff.mp hi
    have := h.requestIff.mp hst
    omega
  · exact e

/-- Where only the check of R102 or R103 applies, no request is outstanding (30_encoding.md R77, R34 item 2). -/
theorem LiveInv.reqN_eq_zero_of_check {halted : Bool} (h : LiveInv s) (hi : selectedIn s.st halted i = true)
    (hc : (∃ d, i = .rdDataCheck d) ∨ i = .rdEndCheck) : s.reqN = 0 := by
  have hst : s.st = .idle ∨ s.st = .presenting ∨ s.st = .decoding := by
    rcases hc with ⟨d, rfl⟩ | rfl <;> exact of_decide_eq_true (Bool.and_eq_true_iff.mp hi).2
  apply h.reqN_eq_zero <;> rcases hst with hst | hst | hst <;> simp [hst]

/-- SHUTDOWN, entered with a cause, meets every item (60_exceptions.md R225). -/
theorem liveInv_enterShutdown {x : ExitCode} (hx : x ≠ .none) : LiveInv (s.enterShutdown x) := by
  constructor <;> simp [hx]

/-! ### The arrays of R34 -/

/-- A range all of whose entries are written is read whole. -/
theorem exists_readRange {w n : Nat} {m : Memory w} (h : ∀ j, j < n → (Memory.read m j).isSome) :
    ∃ vs, Memory.readRange m 0 n = some vs := by
  rw [← Option.isSome_iff_exists, ← Option.ne_none_iff_isSome, ne_eq, Memory.readRange_eq_none]
  rintro ⟨k, hk, hr⟩
  have := h k hk
  simp [Nat.zero_add k ▸ hr] at this

/-- Storing entry `n` behind `n` written entries leaves `n + 1` of them (42_accumulator.md R140). -/
theorem isSome_read_write {w n : Nat} {m : Memory w} {v : BitVec w} (h : ∀ j, j < n → (Memory.read m j).isSome) :
    ∀ j, j < n + 1 → (Memory.read (Memory.write m n v) j).isSome := by
  intro j hj
  by_cases hjn : j = n
  · simp [hjn]
  · rw [Memory.read_write_other m v hjn]
    exact h j (by omega)

/-- A complete payload is read whole, and its samples are the raster of R34 item 5 (43_unpacker.md R162, R164). -/
theorem read_unpacked {cfg : Config} {m : Memory 8} {bs : List Byte} {k : Nat} (h : cfg.legal = true)
    (hr : Memory.readRange m 0 cfg.P = some bs) (hk : k < cfg.N) :
    ∃ b, Memory.read m (payloadIndex k) = some b ∧
      Memory.read (Memory.ofValues 0 (unpackPayload bs)) k = some (fieldOf b (fieldIndex k)) := by
  obtain ⟨hlen, hread⟩ := Memory.readRange_eq_some.mp hr
  have hP := four_mul_P h
  have hidx : payloadIndex k < cfg.P := by unfold payloadIndex; omega
  have hbs : bs[payloadIndex k]? = some bs[payloadIndex k] := List.getElem?_eq_getElem (by omega)
  refine ⟨bs[payloadIndex k], ?_, ?_⟩
  · simpa [hbs] using hread _ hidx
  · simp [unpackPayload_getElem?, hbs]

/-! ### From an operation through settle -/

/-- Where an event that raised no fault leaves the block before settle (44_control.md R191). -/
inductive BeforeSettle (u : State) : Prop where
  /-- R34 holds: nothing is enabled. -/
  | settled (h : LiveInv u)
  /-- ISSUE is about to ask for one byte. -/
  | scans (hst : u.st = .syncing) (hr : u.reqN = 0) (hx : u.exit = .none)
  /-- ISSUE is about to ask for what the payload lacks. -/
  | lacks (hst : u.st = .accumulating) (hr : u.reqN = 0) (hx : u.exit = .none) (hc : u.cnt < u.cfg.P)
      (hw : ∀ j, j < u.cnt → (Memory.read u.pbuf j).isSome)
  /-- DECODE is about to unpack a complete payload. -/
  | full (hst : u.st = .decoding) (hr : u.reqN = 0) (hb : u.rspCnt = 0) (hx : u.exit = .none)
      (hc : u.cnt = u.cfg.P) (hw : ∀ j, j < u.cnt → (Memory.read u.pbuf j).isSome)

/-- An operation a word selects, if it raises no fault, leads from R34 to where settle goes on. -/
theorem Effect.beforeSettle (he : Effect i s u) (hi : selectedIn s.st s.halted i = true) (hb : Bounded s)
    (hl : LiveInv s) (hf : u.fault = .none) : BeforeSettle u := by
  have hrsp := hb.rspLe
  cases he with
  | noRequest | overlong | storeFull | badStart | badOpenFail | badAck | illegal | undecodable => cases hf
  | ignored => exact .settled hl
  | latched | computed => exact .settled { hl with }
  | counted _ hr => exact absurd (hl.reqN_eq_zero_of_check hi (.inl ⟨_, rfl⟩)) hr
  | discarded _ hst _ hr =>
    exact .settled
      { hl with
        noRequestNoBeats := fun h => absurd h hr
        countFollowsBeats := fun h => by cases hst.symm.trans h }
  | hit h hst _ hc =>
    have hask := hl.scanAsksOne hst
    have hfirst : s.rspCnt = 0 := by omega
    have hnone := hl.exit_eq_none (State.st_ne_shutdown_of_live h)
    exact .settled (by constructor <;> simp [hask, hfirst, hnone])
  | stored _ hst hr hc =>
    obtain ⟨heq, hle, -⟩ := hl.beat_fits hst hrsp hc
    exact .settled
      { hl with
        noRequestNoBeats := fun h => absurd h hr
        payloadWritten := fun _ => isSome_read_write (hl.payloadWritten hst)
        rasterDecoded := fun h => by cases hst.symm.trans h
        countFollowsBeats := fun _ => .inr ⟨by
          show s.reqN + (s.cnt + 1) = s.cfg.P + (s.rspCnt + 1)
          omega, Nat.succ_le_succ hle⟩ }
  | ended hc h hr =>
    rcases hc with rfl | ⟨rfl, hst⟩ | ⟨rfl, hst, hlt⟩
    · exact absurd (hl.reqN_eq_zero_of_check hi (.inr rfl)) hr
    · exact .scans hst rfl (hl.exit_eq_none (State.st_ne_shutdown_of_live h))
    · exact .lacks hst rfl (hl.exit_eq_none (State.st_ne_shutdown_of_live h)) (Nat.lt_of_le_of_ne hb.cntLe hlt)
        (hl.payloadWritten hst)
  | completed h hst _ hc =>
    exact .full rfl rfl rfl (hl.exit_eq_none (State.st_ne_shutdown_of_live h)) hc (hl.payloadWritten hst)
  | closed | stops | stopsNow | unavailable => exact .settled (liveInv_enterShutdown (by decide))
  | scans hi h =>
    obtain ⟨-, hst⟩ := reachesLoopTop_cases hi
    refine .scans rfl (hl.reqN_eq_zero ?_ ?_) (hl.exit_eq_none (State.st_ne_shutdown_of_live h)) <;>
      rcases hst with hst | hst <;> simp [hst]
  | issued | decoded => cases hi

/-- Settle raises no fault there and leads to R34. -/
theorem BeforeSettle.settle (h : BeforeSettle u) (hb : Bounded u) (hf : u.fault = .none) :
    ∃ t, settle u = .next t ∧ t.fault = .none ∧ LiveInv t := by
  have issues (hst : u.st = .syncing ∨ u.st = .accumulating) (hr : u.reqN = 0) :=
    settle_of_issueEnabled (State.issueEnabled_iff.mpr ⟨hf, hst, hr⟩)
  cases h with
  | settled h => exact ⟨u, h.settle_eq, hf, h⟩
  | scans hst hr hx =>
    refine ⟨_, issues (.inl hst) hr, hf, ?_⟩
    constructor <;> simp [hst, hx, State.requestSize]
  | lacks hst hr hx hc hw =>
    have hask : 1 ≤ u.cfg.P - u.cnt := Nat.sub_pos_of_lt hc
    have hsum : u.cfg.P - u.cnt + u.cnt = u.cfg.P := Nat.sub_add_cancel (Nat.le_of_lt hc)
    refine ⟨_, issues (.inr hst) hr, hf, ?_⟩
    constructor <;> simp [hst, hx, State.requestSize, hask, hsum]
    case payloadWritten => exact hw
  | full hst hr hz hx hc hw =>
    obtain ⟨bs, hbs⟩ := exists_readRange (hc ▸ hw)
    refine ⟨_, settle_of_decodeEnabled (State.decodeEnabled_iff.mpr ⟨hf, hst⟩) hbs, hf, ?_⟩
    constructor <;> simp [hx, hr, hz]
    case rasterDecoded => exact ⟨hc, fun k hk => by simpa using read_unpacked hb.legal hbs hk⟩

/-- No operation a word selects raises F_UNWRITTEN: ACC_STORE has room for every beat it accepts (R35), and DECODE is
selected by no word. -/
theorem Effect.fault_ne_unwritten (he : Effect i s u) (hi : selectedIn s.st s.halted i = true) (hb : Bounded s)
    (hl : LiveInv s) (hf : s.fault ≠ .unwritten) : u.fault ≠ .unwritten := by
  cases he with
  | storeFull _ hst _ hc hfull => exact absurd (hl.beat_fits hst hb.rspLe hc).2.2 (Nat.not_lt.mpr hfull)
  | undecodable => cases hi
  | noRequest | overlong | badStart | badOpenFail | badAck | illegal => simp
  | _ => exact hf

/-- One event in a live block of the invariant: the selected operation faults and settle does nothing, or no fault is
raised and R34 holds again. -/
theorem takeEvent_cases {e : EventWord} (hb : Bounded s) (hl : LiveInv s) (h : takeEvent s e = .next t) :
    (exec (s.selects e) s = .next t ∧ t.fault ≠ .none) ∨ (t.fault = .none ∧ LiveInv t) := by
  obtain ⟨u, hu, ht⟩ := takeEvent_eq_next.mp h
  have he : Effect (s.selects e) s u := exec_effect hu
  by_cases hf : u.fault = .none
  · have hbefore : BeforeSettle u := he.beforeSettle (Laws.selectedIn_decodeEvent _ _ _ e) hb hl hf
    obtain ⟨t', ht', hf', hl'⟩ := hbefore.settle (he.bounded hb) hf
    cases ht'.symm.trans ht
    exact .inr ⟨hf', hl'⟩
  · rw [settle_of_ignores (State.ignoresEvents_iff.mpr (.inl hf))] at ht
    cases ht
    exact .inl ⟨hu, hf⟩

/-! ### The invariant and F_UNWRITTEN along a step -/

/-- The invariant looks neither at the host's inputs, nor at the trace, nor at a pure function's result. -/
theorem Inv.withOwnFields (h : Inv s) (ins : List Input) (os : List Output) (r : FnResult) :
    Inv { s with inputs := ins, outs := os, fnOut := r } :=
  { h with live := fun hf => { h.live hf with } }

/-- One event keeps the invariant, in a live block and in a halted one. -/
theorem takeEvent_inv {e : EventWord} (h : Inv s) (ht : takeEvent s e = .next t) : Inv t := by
  obtain ⟨hb, hlive⟩ := inv_iff.mp h
  by_cases hf : s.fault = .none
  · refine inv_iff.mpr ⟨takeEvent_bounded hb ht, fun hft => ?_⟩
    rcases takeEvent_cases hb (hlive hf) ht with ⟨-, hft'⟩ | ⟨-, hl⟩
    · exact absurd hft hft'
    · exact hl
  · rw [takeEvent_of_ignores (State.ignoresEvents_iff.mpr (.inl hf))] at ht
    cases ht
    exact h

/-- One event from the invariant does not raise F_UNWRITTEN. -/
theorem takeEvent_fault_ne_unwritten {e : EventWord} (h : Inv s) (hf : s.fault ≠ .unwritten)
    (ht : takeEvent s e = .next t) : t.fault ≠ .unwritten := by
  obtain ⟨hb, hlive⟩ := inv_iff.mp h
  by_cases hf' : s.fault = .none
  · rcases takeEvent_cases hb (hlive hf') ht with ⟨hexec, -⟩ | ⟨hft, -⟩
    · exact (exec_effect hexec).fault_ne_unwritten (Laws.selectedIn_decodeEvent _ _ _ e) hb (hlive hf') hf
    · simp [hft]
  · rw [takeEvent_of_ignores (State.ignoresEvents_iff.mpr (.inl hf'))] at ht
    cases ht
    exact hf

end

/-- Settles O51: a step waits, resets, or takes one event, which keeps the bounds in every block and leads a live block
through settle back to R34. -/
theorem invariantIsKeptByEveryStep : Obligations.InvariantIsKeptByEveryStep := by
  intro s t h ht
  obtain ⟨hlegal, ⟨-, rfl⟩ | ⟨rest, -, rfl⟩ | ⟨e, rest, -, he⟩⟩ := step_eq_next.mp ht
  · exact h
  · exact (inv_resetWith hlegal).withOwnFields _ _ _
  · exact takeEvent_inv (h.withOwnFields rest s.outs s.fnOut) he

/-- Settles O54: an event keeps `fault` off F_UNWRITTEN, a reset clears it, and a waiting step leaves it. -/
theorem unwrittenFaultIsNeverRaised : Obligations.UnwrittenFaultIsNeverRaised := by
  intro s t h hf ht
  obtain ⟨-, ⟨-, rfl⟩ | ⟨rest, -, rfl⟩ | ⟨e, rest, -, he⟩⟩ := step_eq_next.mp ht
  · exact hf
  · simp
  · exact takeEvent_fault_ne_unwritten (h.withOwnFields rest s.outs s.fnOut) hf he

end Sys2Proof.Machine

/-! ## Proofs: the storage arrays (20_memory.md) -/

namespace Sys2Proof.Machine

/-! ### Which operations write an array -/

section
variable {i : Instr} {s t : State}

/-- The one writer of `pbuf`, and the one entry it writes (20_memory.md R51, 42_accumulator.md R140). -/
theorem Effect.pbuf_eq_or_stored (h : Effect i s t) :
    t.pbuf = s.pbuf ∨ ∃ d, i = .accStore d ∧ t.pbuf = Memory.write s.pbuf s.cnt d := by
  cases h with
  | stored => exact .inr ⟨_, rfl, rfl⟩
  | _ => exact .inl rfl

/-- Outside DECODE the raster is kept whole (20_memory.md R52). -/
theorem Effect.raster_eq (h : Effect i s t) (hi : i ≠ .decode) : t.raster = s.raster := by
  cases h with
  | decoded => exact absurd rfl hi
  | _ => rfl

end

/-- Settles O35: an effect keeps `pbuf`, or it is ACC_STORE's write of entry `cnt`. -/
theorem pbufIsWrittenOnlyByAccStore : Obligations.PbufIsWrittenOnlyByAccStore := by
  intro i s t h
  rcases (exec_effect h).pbuf_eq_or_stored with heq | ⟨d, rfl, heq⟩
  · exact ⟨fun _ => heq, fun _ _ _ _ => by rw [heq]⟩
  · exact ⟨fun hne => absurd rfl (hne d), fun _ _ j hj => by rw [heq, Memory.read_write_other _ _ hj]⟩

/-- Settles O36, by cases on the effect an operation has. -/
theorem rasterIsWrittenOnlyByDecode : Obligations.RasterIsWrittenOnlyByDecode :=
  fun _ _ _ h hi _ => by rw [(exec_effect h).raster_eq hi]

/-! ### What an earlier frame leaves behind

Two runs are compared: the second starts from the first's state with other contents of `pbuf`, `raster` and `cnt`. Those
three stay out of sight as long as they agree with the first run's wherever the current frame is held in them. -/

section
variable {s : State} {m : Memory 8} {g : Memory 2} {c : Nat}

/-- The same state with what an earlier frame leaves behind (20_memory.md R62) replaced. -/
def State.withLeavings (s : State) (m : Memory 8) (g : Memory 2) (c : Nat) : State :=
  { s with pbuf := m, raster := g, cnt := c }

/-- No later output of `s` tells the leavings `m`, `g`, `c` from its own: they agree with the part of its own that holds
the current frame, which is `cnt` from SYNC_HIT on, the payload below `cnt` until DECODE, and the raster after it. -/
structure LeavingsHidden (s : State) (m : Memory 8) (g : Memory 2) (c : Nat) : Prop where
  cnt_eq : s.st = .accumulating ∨ s.st = .decoding ∨ s.st = .presenting → c = s.cnt
  payload_eq : s.st = .accumulating ∨ s.st = .decoding → ∀ j, j < s.cnt → Memory.read m j = Memory.read s.pbuf j
  complete : s.st = .decoding → s.cnt = s.cfg.P
  raster_eq : s.st = .presenting → g = s.raster

/-- Where no frame is held, any leavings are hidden. -/
theorem leavingsHidden_of_noFrame (h : s.st = .idle ∨ s.st = .syncing ∨ s.st = .shutdown) :
    LeavingsHidden s m g c := by
  rcases h with h | h | h <;> constructor <;> simp [h]

/-! ### Answers that differ in hidden leavings only -/

/-- Two answers that differ at most in leavings their next states hide. -/
inductive AnswersAlike : Answer → Answer → Prop where
  | next {t : State} {m : Memory 8} {g : Memory 2} {c : Nat} (h : LeavingsHidden t m g c) :
      AnswersAlike (.next t) (.next (t.withLeavings m g c))
  | fault (f : Fault) : AnswersAlike (.fault f) (.fault f)
  | refused (q : Refusal) : AnswersAlike (.refused q) (.refused q)

variable {r r' a a' : Answer} {k : State → Answer}

theorem AnswersAlike.andThen (h : AnswersAlike r r')
    (hk : ∀ t m g c, LeavingsHidden t m g c → AnswersAlike (k t) (k (t.withLeavings m g c))) :
    AnswersAlike (Answer.andThen r k) (Answer.andThen r' k) := by
  cases h with
  | next h => exact hk _ _ _ _ h
  | fault f => exact .fault f
  | refused q => exact .refused q

theorem AnswersAlike.ite {p : Prop} [Decidable p] (hr : p → AnswersAlike r r') (ha : ¬ p → AnswersAlike a a') :
    AnswersAlike (if p then r else a) (if p then r' else a') := by
  split
  · exact hr ‹_›
  · exact ha ‹_›

theorem AnswersAlike.onlyIf {b : Bool} (hr : b = true → AnswersAlike r r') :
    AnswersAlike (onlyIf b r) (onlyIf b r') :=
  .ite hr fun _ => .refused _

/-- Whether a block ignores events does not rest on the leavings. -/
theorem AnswersAlike.unlessIgnored (h : LeavingsHidden s m g c) (hr : AnswersAlike r r') :
    AnswersAlike (unlessIgnored s r) (unlessIgnored (s.withLeavings m g c) r') :=
  .ite (fun _ => .next h) fun _ => hr

/-- A raised fault shows none of the leavings. -/
theorem AnswersAlike.raiseFault (h : LeavingsHidden s m g c) (x : FaultCode) :
    AnswersAlike (.next (s.raiseFault x)) (.next ((s.withLeavings m g c).raiseFault x)) :=
  .next { h with }

/-- An entry to SHUTDOWN shows none of the leavings, and SHUTDOWN holds no frame (60_exceptions.md R225). -/
theorem AnswersAlike.enterShutdown (x : ExitCode) :
    AnswersAlike (.next (s.enterShutdown x)) (.next ((s.withLeavings m g c).enterShutdown x)) :=
  .next (leavingsHidden_of_noFrame (.inr (.inr rfl)))

theorem State.loopTop_withLeavings : (s.withLeavings m g c).loopTop = s.loopTop.withLeavings m g c := by
  cases hp : s.stopPend <;> simp [State.loopTop, State.withLeavings, hp, State.enterShutdown, State.emit]

/-- The loop top ends in SYNCING or SHUTDOWN, which hold no frame (44_control.md R195). -/
theorem AnswersAlike.loopTop : AnswersAlike (.next s.loopTop) (.next (s.withLeavings m g c).loopTop) := by
  rw [State.loopTop_withLeavings]
  refine .next (leavingsHidden_of_noFrame ?_)
  rcases s.loopTop_cases with ⟨-, e⟩ | ⟨-, e⟩ <;> simp [e]

/-! ### The checks of a response -/

theorem State.acceptBeat_withLeavings :
    (s.withLeavings m g c).acceptBeat = s.acceptBeat.map (·.withLeavings m g c) := by
  by_cases hr : s.reqN = 0
  · simp [State.acceptBeat, State.withLeavings, Except.map, hr]
  · by_cases hb : s.rspCnt = s.reqN <;> simp [State.acceptBeat, State.withLeavings, Except.map, hr, hb]

theorem State.acceptEnd_withLeavings :
    (s.withLeavings m g c).acceptEnd = s.acceptEnd.map (·.withLeavings m g c) := by
  by_cases hr : s.reqN = 0 <;> simp [State.acceptEnd, State.withLeavings, Except.map, hr]

theorem AnswersAlike.afterCheck {check : Except FaultCode State} (h : LeavingsHidden s m g c)
    (hk : ∀ u, check = .ok u → AnswersAlike (k u) (k (u.withLeavings m g c))) :
    AnswersAlike (afterCheck s check k) (afterCheck (s.withLeavings m g c) (check.map (·.withLeavings m g c)) k) := by
  cases check with
  | error x => exact .raiseFault h x
  | ok u => exact hk u rfl

/-- A beat is refused or counted the same, whatever the leavings (40_source_port.md R102). -/
theorem AnswersAlike.afterBeat (h : LeavingsHidden s m g c)
    (hk : AnswersAlike (k { s with rspCnt := s.rspCnt + 1 })
      (k (({ s with rspCnt := s.rspCnt + 1 } : State).withLeavings m g c))) :
    AnswersAlike (Machine.afterCheck s s.acceptBeat k)
      (Machine.afterCheck (s.withLeavings m g c) (s.withLeavings m g c).acceptBeat k) := by
  rw [State.acceptBeat_withLeavings]
  refine .afterCheck h fun u hu => ?_
  rcases s.acceptBeat_cases with ⟨-, e⟩ | ⟨-, -, e⟩ | ⟨-, -, e⟩ <;> cases e.symm.trans hu
  exact hk

/-- An end is refused or clears the request the same, whatever the leavings (40_source_port.md R103). -/
theorem AnswersAlike.afterEnd (h : LeavingsHidden s m g c)
    (hk : AnswersAlike (k { s with reqN := 0, rspCnt := 0 })
      (k (({ s with reqN := 0, rspCnt := 0 } : State).withLeavings m g c))) :
    AnswersAlike (Machine.afterCheck s s.acceptEnd k)
      (Machine.afterCheck (s.withLeavings m g c) (s.withLeavings m g c).acceptEnd k) := by
  rw [State.acceptEnd_withLeavings]
  refine .afterCheck h fun u hu => ?_
  rcases s.acceptEnd_cases with ⟨-, e⟩ | ⟨-, e⟩ <;> cases e.symm.trans hu
  exact hk

/-! ### The operations that look at an array or at `cnt` -/

/-- SYNC_HIT starts a frame with `cnt = 0`, so nothing of the buffer counts as its payload (41_synchronizer.md R121). -/
theorem execSyncHit_alike (h : LeavingsHidden s m g c) :
    AnswersAlike (execSyncHit s) (execSyncHit (s.withLeavings m g c)) := by
  have started : LeavingsHidden { s with rspCnt := s.rspCnt + 1, cnt := 0, st := .accumulating } m g 0 := by
    constructor <;> simp
  exact .unlessIgnored h (.onlyIf fun _ => .afterBeat h (.next started))

/-- ACC_STORE adds the same byte at the same index (42_accumulator.md R140). -/
theorem execAccStore_alike (d : Byte) (h : LeavingsHidden s m g c) :
    AnswersAlike (execAccStore d s) (execAccStore d (s.withLeavings m g c)) := by
  refine .unlessIgnored h (.onlyIf fun hst => .afterBeat h ?_)
  replace hst : s.st = .accumulating := of_decide_eq_true hst
  obtain rfl : c = s.cnt := h.cnt_eq (.inl hst)
  have counted : LeavingsHidden { s with rspCnt := s.rspCnt + 1 } m g s.cnt := { h with }
  have stored : LeavingsHidden
      { s with rspCnt := s.rspCnt + 1, pbuf := Memory.write s.pbuf s.cnt d, cnt := s.cnt + 1 }
      (Memory.write m s.cnt d) g (s.cnt + 1) :=
    { cnt_eq := fun _ => rfl
      payload_eq := fun _ j hj => by
        by_cases hjc : j = s.cnt
        · simp [hjc]
        · have hbelow : j < s.cnt := Nat.lt_of_le_of_ne (Nat.le_of_lt_succ hj) hjc
          simpa [Memory.read_write_other _ d hjc] using h.payload_eq (.inl hst) j hbelow
      complete := fun hd => by cases hst.symm.trans hd
      raster_eq := h.raster_eq }
  exact .ite (fun _ => .next stored) fun _ => .raiseFault counted _

/-- ACC_END compares the same `cnt` with `P` (42_accumulator.md R141). -/
theorem execAccEnd_alike (h : LeavingsHidden s m g c) :
    AnswersAlike (execAccEnd s) (execAccEnd (s.withLeavings m g c)) := by
  refine .unlessIgnored h (.onlyIf fun hst => .afterEnd h ?_)
  replace hst : s.st = .accumulating := of_decide_eq_true hst
  obtain rfl : c = s.cnt := h.cnt_eq (.inl hst)
  refine .ite (fun hc => .next ?_) fun _ => .next { h with }
  exact
    { cnt_eq := fun _ => rfl
      payload_eq := fun _ => h.payload_eq (.inl hst)
      complete := fun _ => hc
      raster_eq := fun hp => by cases hp }

theorem State.requestSize_withLeavings (h : LeavingsHidden s m g c) (hst : s.st = .syncing ∨ s.st = .accumulating) :
    (s.withLeavings m g c).requestSize = s.requestSize := by
  rcases hst with hst | hst
  · simp [State.requestSize, State.withLeavings, hst]
  · simp [State.requestSize, State.withLeavings, hst, h.cnt_eq (.inl hst)]

/-- ISSUE asks for the same number of bytes: while scanning for one, else for what the payload lacks
(40_source_port.md R100). -/
theorem execIssue_alike (h : LeavingsHidden s m g c) :
    AnswersAlike (execIssue s) (execIssue (s.withLeavings m g c)) := by
  refine .onlyIf fun hi => ?_
  obtain ⟨-, hst, -⟩ := State.issueEnabled_iff.mp hi
  rw [State.requestSize_withLeavings h hst]
  exact .next { h with }

/-- A range read looks at the entries of the range only. -/
theorem Memory.readRange_congr {w a n : Nat} {m m' : Memory w}
    (h : ∀ j, j < n → Memory.read m (a + j) = Memory.read m' (a + j)) :
    Memory.readRange m a n = Memory.readRange m' a n := by
  refine Option.ext fun vs => ?_
  rw [Memory.readRange_eq_some, Memory.readRange_eq_some]
  exact and_congr_right fun _ => forall₂_congr fun j hj => by rw [h j hj]

/-- DECODE unpacks the same payload, and with it every entry of the raster (43_unpacker.md R162). -/
theorem execDecode_alike (h : LeavingsHidden s m g c) :
    AnswersAlike (execDecode s) (execDecode (s.withLeavings m g c)) := by
  refine .onlyIf fun hd => ?_
  obtain ⟨-, hst⟩ := State.decodeEnabled_iff.mp hd
  have samePayload : Memory.readRange (s.withLeavings m g c).pbuf 0 (s.withLeavings m g c).cfg.P =
      Memory.readRange s.pbuf 0 s.cfg.P :=
    Memory.readRange_congr fun j hj => by
      rw [Nat.zero_add]
      exact h.payload_eq (.inr hst) j (hj.trans_eq (h.complete hst).symm)
  rw [samePayload]
  cases Memory.readRange s.pbuf 0 s.cfg.P with
  | none => exact .raiseFault h _
  | some bs =>
    exact .next
      { cnt_eq := fun _ => h.cnt_eq (.inr (.inl hst))
        payload_eq := fun hf => by rcases hf with hf | hf <;> cases hf
        complete := fun hf => by cases hf
        raster_eq := fun _ => rfl }

/-! ### Every operation, an event, and a run -/

/-- No operation shows hidden leavings, and none uncovers them. -/
theorem exec_alike (i : Instr) (h : LeavingsHidden s m g c) :
    AnswersAlike (exec i s) (exec i (s.withLeavings m g c)) := by
  cases i with
  | syncHit => exact execSyncHit_alike h
  | accStore d => exact execAccStore_alike d h
  | accEnd => exact execAccEnd_alike h
  | issue => exact execIssue_alike h
  | decode => exact execDecode_alike h
  | syncDiscard d => exact .unlessIgnored h (.onlyIf fun _ => .afterBeat h (.next { h with }))
  | rdDataCheck d => exact .unlessIgnored h (.afterBeat h (.next { h with }))
  | syncEnd => exact .unlessIgnored h (.onlyIf fun _ => .afterEnd h (.next { h with }))
  | rdEndCheck => exact .unlessIgnored h (.afterEnd h (.next { h with }))
  | srcClosed => exact .unlessIgnored h (.ite (fun _ => .raiseFault h _) fun _ => .enterShutdown _)
  | start => exact .unlessIgnored h (.ite (fun _ => .loopTop) fun _ => .raiseFault h _)
  | sinkAck => exact .unlessIgnored h (.ite (fun _ => .loopTop) fun _ => .raiseFault h _)
  | openFail => exact .unlessIgnored h (.ite (fun _ => .enterShutdown _) fun _ => .raiseFault h _)
  | stop =>
    refine .unlessIgnored h ?_
    simp only [State.withLeavings]
    cases s.cfg.stopSampling with
    | loopTop => exact .next { h with }
    | anyStep => exact .enterShutdown _
  | startMisplaced | openFailMisplaced | sinkAckMisplaced | illegalData =>
    exact .unlessIgnored h (.onlyIf fun _ => .raiseFault h _)
  | illegalKind7 | illegalKind8F => exact .unlessIgnored h (.raiseFault h _)
  | shutdownIgnore => exact .unlessIgnored h (.refused _)
  | loopTop => exact .onlyIf fun _ => .loopTop
  | field | unpack | lum | rgb => exact .next { h with }

theorem settle_alike (h : LeavingsHidden s m g c) : AnswersAlike (settle s) (settle (s.withLeavings m g c)) := by
  cases he : s.enabledOperation with
  | none =>
    rw [settle_of_not_enabled he, settle_of_not_enabled (s := s.withLeavings m g c) he]
    exact .next h
  | some i =>
    have hs : settle s = exec i s := by simp [settle, he]
    have hs' : settle (s.withLeavings m g c) = exec i (s.withLeavings m g c) := by
      simp [settle, show (s.withLeavings m g c).enabledOperation = some i from he]
    rw [hs, hs']
    exact exec_alike i h

theorem takeEvent_alike (e : EventWord) (h : LeavingsHidden s m g c) :
    AnswersAlike (takeEvent s e) (takeEvent (s.withLeavings m g c) e) :=
  (exec_alike (s.selects e) h).andThen fun _ _ _ _ => settle_alike

/-- One input: the block waits, the leavings are cleared by a reset, or an event is taken. -/
theorem takeInput_alike (h : LeavingsHidden s m g c) :
    AnswersAlike (takeInput s) (takeInput (s.withLeavings m g c)) := by
  unfold takeInput
  rw [show (s.withLeavings m g c).inputs = s.inputs from rfl]
  cases s.inputs with
  | nil => exact .next h
  | cons x rest =>
    cases x with
    | reset => exact .next (leavingsHidden_of_noFrame (.inl rfl))
    | event e => exact takeEvent_alike e { h with }

theorem step_alike (h : LeavingsHidden s m g c) : AnswersAlike (step s) (step (s.withLeavings m g c)) :=
  .ite (fun _ => takeInput_alike h) fun _ => .refused _

theorem run_succ (n : Nat) (s : State) :
    Host.Core.run core (n + 1) s = Answer.andThen (step s) (Host.Core.run core n) := by
  have hstep : core.step s = step s := rfl
  simp only [Host.Core.run, hstep]
  cases step s <;> rfl

theorem run_alike (n : Nat) (h : LeavingsHidden s m g c) :
    AnswersAlike (Host.Core.run core n s) (Host.Core.run core n (s.withLeavings m g c)) := by
  induction n generalizing s m g c with
  | zero => exact .next h
  | succ n ih =>
    rw [run_succ, run_succ]
    exact (step_alike h).andThen fun _ _ _ _ => ih

/-- The frame port does not show hidden leavings: in PRESENTING it carries the frame's own raster, and elsewhere it
gives no value (log entry 13). -/
theorem LeavingsHidden.frameSample_eq (h : LeavingsHidden s m g c) (i : Nat) :
    (s.withLeavings m g c).frameSample i = s.frameSample i := by
  by_cases hst : s.st = .presenting
  · obtain rfl : g = s.raster := h.raster_eq hst
    rfl
  · rw [State.frameSample_of_not_presenting hst, State.frameSample_of_not_presenting (s := s.withLeavings m g c) hst]

end

/-- Settles O60: in SYNCING any leavings are hidden, a run keeps them hidden, and hidden leavings show in no output. The
argument needs neither state's invariant. -/
theorem earlierFramesCannotBeSeenInLaterOutputs : Obligations.EarlierFramesCannotBeSeenInLaterOutputs := by
  intro n s s' t t' _ _ hst hs' ht ht'
  have start : LeavingsHidden s s'.pbuf s'.raster s'.cnt := leavingsHidden_of_noFrame (.inr (.inl hst))
  have runs := run_alike n start
  rw [ht, show s.withLeavings s'.pbuf s'.raster s'.cnt = s' from hs'.symm, ht'] at runs
  cases runs with
  | next h =>
    refine ⟨rfl, rfl, fun hf => h.cnt_eq (hf.imp_right .inr), fun i => ?_⟩
    have hsample := h.frameSample_eq i
    exact ⟨hsample, by simp [State.frameLum, hsample], by simp [State.frameRgb, hsample]⟩

end Sys2Proof.Machine

/-! ## Proofs: the encoding (30_encoding.md) -/

namespace Sys2Proof.Laws

/-! ### The reserved rows -/

/-- The operation `i` is well formed, and `e` is its word. -/
def IsWordOf (S : Byte) (e : EventWord) (i : Instr) : Prop := wellFormed S i = true ∧ encode S i = some e

/-- The rows of the reserved and illegal words (R78). -/
def isReservedRow : Instr → Bool
  | .illegalKind7 _ | .illegalKind8F _ _ | .illegalData _ _ => true
  | _ => false

section
variable {S : Byte} {st : Lifecycle} {halted : Bool} {i : Instr} {e : EventWord}

theorem decodeIllegal_high (low : BitVec 3) (data : Byte) :
    decodeIllegal (1#1 ++ low) data = .illegalKind8F low data := by
  have hk : ∀ low : BitVec 3,
      1#1 ++ low ≠ 7#4 ∧ 8 ≤ (1#1 ++ low).toNat ∧ (1#1 ++ low).extractLsb' 0 3 = low := by decide
  obtain ⟨h7, h8, hlow⟩ := hk low
  rw [decodeIllegal, if_neg h7, if_pos h8, hlow]

theorem decodeIllegal_low {kind : BitVec 4} (h : kind.toNat ≤ 6) (data : Byte) :
    decodeIllegal kind data = .illegalData kind data := by
  have h7 : kind ≠ 7#4 := by
    rintro rfl
    exact absurd h (by decide)
  rw [decodeIllegal, if_neg h7, if_neg (by omega)]

/-- R78's condition on the word `kind ‖ data`. -/
theorem illegalWord_eventWord {kind : BitVec 4} {data : Byte} :
    illegalWord (eventWord kind data) = true ↔ 7 ≤ kind.toNat ∨ (kind ≠ 0#4 ∧ data ≠ 0#8) := by
  simp [illegalWord]

theorem isReservedRow_decodeIllegal (kind : BitVec 4) (data : Byte) :
    isReservedRow (decodeIllegal kind data) = true := by
  unfold decodeIllegal
  split
  · rfl
  · split <;> rfl

/-- The word of a reserved row is illegal. -/
theorem illegalWord_of_isReservedRow (hi : isReservedRow i = true) (h : IsWordOf S e i) :
    illegalWord e = true := by
  obtain ⟨hw, he⟩ := h
  cases i with
  | illegalKind7 data =>
    cases he
    exact illegalWord_eventWord.mpr (.inl (by decide))
  | illegalKind8F low data =>
    cases he
    have hk : ∀ low : BitVec 3, 7 ≤ (1#1 ++ low).toNat := by decide
    exact illegalWord_eventWord.mpr (.inl (hk low))
  | illegalData kind data =>
    cases he
    simp only [wellFormed, Bool.and_eq_true, decide_eq_true_eq] at hw
    obtain ⟨⟨hlow, -⟩, hdata⟩ := hw
    refine illegalWord_eventWord.mpr (.inr ⟨?_, hdata⟩)
    rintro rfl
    exact absurd hlow (by decide)
  | _ => cases hi

/-! ### From an operation to its word and back -/

/-- The word of a reserved row is decoded by R78's rows. -/
theorem decodeEvent_of_isReservedRow {kind : BitVec 4} {data : Byte} (hs : st ≠ .shutdown)
    (hi : isReservedRow i = true) (h : IsWordOf S (eventWord kind data) i) :
    decodeEvent S st false (eventWord kind data) = decodeIllegal kind data := by
  rw [decodeEvent_illegal hs (illegalWord_of_isReservedRow hi h), eventKind_eventWord, eventData_eventWord]

/-- A block that ignores events has one cell, SHUTDOWN_IGNORE (R226, R229). -/
theorem eq_shutdownIgnore_of_selectedIn (hi : selectedIn st halted i = true) (h : halted = true ∨ st = .shutdown) :
    ∃ kind data, i = .shutdownIgnore kind data := by
  cases i with
  | shutdownIgnore kind data => exact ⟨kind, data, rfl⟩
  | _ => rcases h with rfl | rfl <;> simp [selectedIn] at hi

/-- In a block that takes events, each row's word leads back to the row from the states of the row's own cell. -/
theorem decodeEvent_encode_of_live (hs : st ≠ .shutdown) (hw : wellFormed S i = true)
    (hi : selectedIn st false i = true) (he : encode S i = some e) : decodeEvent S st false e = i := by
  obtain ⟨hEnd, hClosed, hStart, hStop, hOpenFail, hAck⟩ := decodeEvent_fixed (S := S) hs
  cases i with
  | syncDiscard d =>
    cases he
    obtain rfl : st = .syncing := of_decide_eq_true hi
    rw [decodeEvent_data d hs]
    exact if_neg (of_decide_eq_true hw)
  | syncHit =>
    cases he
    obtain rfl : st = .syncing := of_decide_eq_true hi
    rw [decodeEvent_data S hs]
    exact if_pos rfl
  | accStore d =>
    cases he
    obtain rfl : st = .accumulating := of_decide_eq_true hi
    exact decodeEvent_data d hs
  | rdDataCheck d =>
    cases he
    rw [decodeEvent_data d hs]
    rcases of_decide_eq_true hi with rfl | rfl | rfl <;> rfl
  | syncEnd =>
    cases he
    obtain rfl : st = .syncing := of_decide_eq_true hi
    exact hEnd
  | accEnd =>
    cases he
    obtain rfl : st = .accumulating := of_decide_eq_true hi
    exact hEnd
  | rdEndCheck =>
    cases he
    rw [hEnd]
    rcases of_decide_eq_true hi with rfl | rfl | rfl <;> rfl
  | srcClosed =>
    cases he
    exact hClosed
  | start =>
    cases he
    exact hStart.trans (if_pos (of_decide_eq_true hi))
  | startMisplaced =>
    cases he
    exact hStart.trans (if_neg (of_decide_eq_true hi).1)
  | stop =>
    cases he
    exact hStop
  | openFail =>
    cases he
    exact hOpenFail.trans (if_pos (of_decide_eq_true hi))
  | openFailMisplaced =>
    cases he
    exact hOpenFail.trans (if_neg (of_decide_eq_true hi).1)
  | sinkAck =>
    cases he
    exact hAck.trans (if_pos (of_decide_eq_true hi))
  | sinkAckMisplaced =>
    cases he
    exact hAck.trans (if_neg (of_decide_eq_true hi).1)
  | illegalKind7 data =>
    cases he
    exact decodeEvent_of_isReservedRow hs rfl ⟨hw, rfl⟩
  | illegalKind8F low data =>
    cases he
    rw [decodeEvent_of_isReservedRow hs rfl ⟨hw, rfl⟩, decodeIllegal_high]
  | illegalData kind data =>
    cases he
    have hkind : kind.toNat ≤ 6 := of_decide_eq_true (Bool.and_elim_right (Bool.and_elim_left hw))
    rw [decodeEvent_of_isReservedRow hs rfl ⟨hw, rfl⟩, decodeIllegal_low hkind]
  | shutdownIgnore => exact absurd (of_decide_eq_true hi) hs
  | issue | decode | loopTop | field | unpack | lum | rgb => cases he

end

/-- Settles O47: a block that ignores events keeps the whole word, and elsewhere each row is the one its own word
selects in its cell. -/
theorem encodedOperationDecodesToItself : Obligations.EncodedOperationDecodesToItself := by
  intro S st halted i e hw hi he
  by_cases hd : halted = true ∨ st = .shutdown
  · obtain ⟨kind, data, rfl⟩ := eq_shutdownIgnore_of_selectedIn hi hd
    cases he
    rw [decodeEvent_ignored _ hd, eventKind_eventWord, eventData_eventWord]
  · obtain ⟨hh, hs⟩ := not_or.mp hd
    obtain rfl : halted = false := eq_false_of_ne_true hh
    exact decodeEvent_encode_of_live hs hw hi he

/-! ### From a word to its operation and back -/

section
variable {S : Byte} {st : Lifecycle}

theorem isWordOf_decodeRdData (d : Byte) : IsWordOf S (eventWord 0#4 d) (decodeRdData S st d) := by
  cases st with
  | syncing =>
    by_cases hd : d = S
    · simp [decodeRdData, hd, IsWordOf, wellFormed, encode]
    · simp [decodeRdData, hd, IsWordOf, wellFormed, encode]
  | _ => exact ⟨rfl, rfl⟩

theorem isWordOf_decodeRdEnd : IsWordOf S 0x100#12 (decodeRdEnd st) := by
  cases st <;> exact ⟨rfl, rfl⟩

/-- The reserved rows keep every bit of an illegal word (R78). -/
theorem isWordOf_decodeIllegal {e : EventWord} (h : illegalWord e = true) :
    IsWordOf S e (decodeIllegal (eventKind e) (eventData e)) := by
  obtain ⟨kind, data, rfl⟩ : ∃ kind data, e = eventWord kind data := ⟨_, _, (eventWord_kind_data e).symm⟩
  rw [eventKind_eventWord, eventData_eventWord]
  have hk : ∀ kind : BitVec 4, kind = 7#4 ∨ (∃ low : BitVec 3, kind = 1#1 ++ low) ∨ kind.toNat ≤ 6 := by decide
  rcases hk kind with rfl | ⟨low, rfl⟩ | hlow
  · exact ⟨rfl, rfl⟩
  · rw [decodeIllegal_high]
    exact ⟨rfl, rfl⟩
  · rw [decodeIllegal_low hlow]
    obtain ⟨hkind, hdata⟩ := (illegalWord_eventWord.mp h).resolve_left (by omega)
    have hpos : 1 ≤ kind.toNat := Nat.pos_of_ne_zero fun h0 => hkind (BitVec.eq_of_toNat_eq h0)
    exact ⟨by simp [wellFormed, hpos, hlow, hdata], rfl⟩

end

/-- The operation a word selects has that word (30_encoding.md R77). -/
theorem isWordOf_decodeEvent (S : Byte) (st : Lifecycle) (halted : Bool) (e : EventWord) :
    IsWordOf S e (decodeEvent S st halted e) := by
  by_cases hd : halted = true ∨ st = .shutdown
  · rw [decodeEvent_ignored e hd]
    exact ⟨rfl, congrArg some (eventWord_kind_data e)⟩
  · obtain ⟨hh, hs⟩ := not_or.mp hd
    obtain rfl : halted = false := eq_false_of_ne_true hh
    cases hw : illegalWord e
    · obtain ⟨hEnd, hClosed, hStart, hStop, hOpenFail, hAck⟩ := decodeEvent_fixed (S := S) hs
      rcases legalWord_cases hw with ⟨d, rfl⟩ | rfl | rfl | rfl | rfl | rfl | rfl
      · rw [decodeEvent_data d hs]
        exact isWordOf_decodeRdData d
      · rw [hEnd]
        exact isWordOf_decodeRdEnd
      · rw [hClosed]
        exact ⟨rfl, rfl⟩
      · rw [hStart]
        split <;> exact ⟨rfl, rfl⟩
      · rw [hStop]
        exact ⟨rfl, rfl⟩
      · rw [hOpenFail]
        split <;> exact ⟨rfl, rfl⟩
      · rw [hAck]
        split <;> exact ⟨rfl, rfl⟩
    · rw [decodeEvent_illegal hs hw]
      exact isWordOf_decodeIllegal hw

/-- Settles O48, from the row's cell and the row's word. -/
theorem everyWordSelectsTheRowItEncodes : Obligations.EveryWordSelectsTheRowItEncodes := by
  intro S st halted e
  obtain ⟨hw, he⟩ := isWordOf_decodeEvent S st halted e
  exact ⟨hw, selectedIn_decodeEvent S st halted e, he⟩

/-- Settles O2: the decoder is evaluated on the fourteen words. -/
theorem specWordsDecodeToTheirRows : Obligations.SpecWordsDecodeToTheirRows := by
  unfold Obligations.SpecWordsDecodeToTheirRows
  decide

/-! ### The legal words -/

/-- R78's condition, on the numbers a word's fields hold. -/
theorem illegalWord_iff {e : EventWord} : illegalWord e = true ↔
    7 ≤ (eventKind e).toNat ∨ ((eventKind e).toNat ≠ 0 ∧ (eventData e).toNat ≠ 0) := by
  simp [illegalWord, ← BitVec.toNat_inj]

/-- The legal words as numbers: the data words `0x000..0x0FF`, and the six words without an operand (R78). -/
def legalNumbers : Finset Nat := Finset.range 256 ∪ {0x100, 0x200, 0x300, 0x400, 0x500, 0x600}

theorem card_legalNumbers : legalNumbers.card = 262 := by
  have hdisj : Disjoint (Finset.range 256) {0x100, 0x200, 0x300, 0x400, 0x500, 0x600} := by
    simp [Finset.disjoint_right]
  rw [legalNumbers, Finset.card_union_of_disjoint hdisj, Finset.card_range]
  rfl

theorem mem_legalNumbers_iff {w : Nat} (h : w < 4096) :
    w ∈ legalNumbers ↔ illegalWord (BitVec.ofNat 12 w) = false := by
  have hkind : (eventKind (BitVec.ofNat 12 w)).toNat = w / 256 := by
    simp [eventKind, BitVec.extractLsb'_toNat, Nat.shiftRight_eq_div_pow]
    omega
  have hdata : (eventData (BitVec.ofNat 12 w)).toNat = w % 256 := by
    simp [eventData, BitVec.extractLsb'_toNat]
  rw [← Bool.not_eq_true, illegalWord_iff, hkind, hdata]
  simp only [legalNumbers, Finset.mem_union, Finset.mem_range, Finset.mem_insert, Finset.mem_singleton]
  omega

theorem lt_of_mem_legalNumbers {w : Nat} (h : w ∈ legalNumbers) : w < 4096 := by
  simp only [legalNumbers, Finset.mem_union, Finset.mem_range, Finset.mem_insert, Finset.mem_singleton] at h
  omega

theorem filter_legal_eq_legalNumbers :
    (Finset.range 4096).filter (fun w => illegalWord (BitVec.ofNat 12 w) = false) = legalNumbers := by
  ext w
  rw [Finset.mem_filter, Finset.mem_range]
  constructor
  · rintro ⟨hw, hl⟩
    exact (mem_legalNumbers_iff hw).mpr hl
  · intro hm
    have hw : w < 4096 := lt_of_mem_legalNumbers hm
    exact ⟨hw, (mem_legalNumbers_iff hw).mp hm⟩

theorem countP_not_eq_count (p : Nat → Bool) (n : Nat) :
    (List.range n).countP (fun w => !p w) = Nat.count (fun w => p w = false) n := by
  simp [Nat.count]

/-- The legal words number 262 (R78). -/
theorem countP_legal : (List.range 4096).countP (fun w => !illegalWord (BitVec.ofNat 12 w)) = 262 := by
  rw [countP_not_eq_count, Nat.count_eq_card_filter_range, filter_legal_eq_legalNumbers, card_legalNumbers]

end Sys2Proof.Laws

namespace Sys2Proof.Machine

open Laws

/-! ### The reserved words -/

section
variable {i : Instr} {s t : State} {e : EventWord}

/-- A block that takes events answers a reserved row with F_ILLEGAL_EVENT (R78). -/
theorem exec_of_isReservedRow {S : Byte} (hi : isReservedRow i = true) (hw : wellFormed S i = true)
    (h : s.ignoresEvents = false) : exec i s = .next (s.raiseFault .illegalEvent) := by
  cases i with
  | illegalKind7 | illegalKind8F => exact unlessIgnored_of_live h _
  | illegalData => exact (unlessIgnored_of_live h _).trans (if_pos hw)
  | _ => cases hi

/-- Only a reserved row raises F_ILLEGAL_EVENT. -/
theorem Effect.isReservedRow_of_fault (h : Effect i s t) (hs : s.fault ≠ .illegalEvent)
    (ht : t.fault = .illegalEvent) : isReservedRow i = true := by
  cases h with
  | illegal hi => rcases hi with ⟨_, rfl⟩ | ⟨_, _, rfl⟩ | ⟨_, _, rfl⟩ <;> rfl
  | noRequest | overlong | storeFull | badStart | badOpenFail | badAck | undecodable => cases ht
  | _ => exact absurd ht hs

/-- An illegal word raises F_ILLEGAL_EVENT, and the halted block settles as it is. -/
theorem takeEvent_of_illegalWord (h : s.ignoresEvents = false) (he : illegalWord e = true) :
    takeEvent s e = .next (s.raiseFault .illegalEvent) := by
  obtain ⟨hf, hst⟩ := State.ignoresEvents_eq_false.mp h
  have hsel : s.selects e = decodeIllegal (eventKind e) (eventData e) := by
    rw [State.selects, State.halted_eq_false.mpr hf, decodeEvent_illegal hst he]
  have hexec : exec (s.selects e) s = .next (s.raiseFault .illegalEvent) := by
    rw [hsel]
    exact exec_of_isReservedRow (isReservedRow_decodeIllegal _ _) (isWordOf_decodeIllegal (S := s.cfg.S) he).1 h
  exact takeEvent_eq_next.mpr ⟨_, hexec, settle_of_ignores (State.ignoresEvents_iff.mpr (.inl (by simp)))⟩

/-- An event raises F_ILLEGAL_EVENT only by an illegal word: settle runs no reserved row. -/
theorem illegalWord_of_takeEvent_fault (h : takeEvent s e = .next t) (hs : s.fault ≠ .illegalEvent)
    (ht : t.fault = .illegalEvent) : illegalWord e = true := by
  obtain ⟨u, hu, hsettle⟩ := takeEvent_eq_next.mp h
  have hfault : u.fault = .illegalEvent := by
    by_contra hne
    rcases settle_effect hsettle with he | he | rfl
    · cases he.isReservedRow_of_fault hne ht
    · cases he.isReservedRow_of_fault hne ht
    · exact hne ht
  exact illegalWord_of_isReservedRow ((exec_effect hu).isReservedRow_of_fault hs hfault)
    (isWordOf_decodeEvent s.cfg.S s.st s.halted e)

/-- Under a legal configuration a step takes the event at the head of the inputs. -/
theorem step_of_event {rest : List Input} (hl : s.cfg.legal = true) (hin : s.inputs = .event e :: rest) :
    step s = takeEvent { s with inputs := rest } e := by
  simp [step, stepUnderLegal, takeInput, hl, hin]

end

/-- Settles O31: the three rows are the reserved rows, and an operand in R78's ranges is well formed. -/
theorem reservedRowsRaiseIllegalEvent : Obligations.ReservedRowsRaiseIllegalEvent := by
  refine ⟨fun s data hf hst => ?_, fun s low data hf hst => ?_, fun s kind data hf hst hlow hhigh hdata => ?_⟩
  · exact exec_of_isReservedRow (S := 0#8) rfl rfl (State.ignoresEvents_eq_false.mpr ⟨hf, hst⟩)
  · exact exec_of_isReservedRow (S := 0#8) rfl rfl (State.ignoresEvents_eq_false.mpr ⟨hf, hst⟩)
  · have hw : wellFormed s.cfg.S (.illegalData kind data) = true := by simp [wellFormed, hlow, hhigh, hdata]
    exact exec_of_isReservedRow rfl hw (State.ignoresEvents_eq_false.mpr ⟨hf, hst⟩)

/-- Settles O32: the legal words are counted as numbers, and a step raises F_ILLEGAL_EVENT by a reserved row only. -/
theorem exactlyIllegalWordsRaiseIllegalEvent : Obligations.ExactlyIllegalWordsRaiseIllegalEvent := by
  refine ⟨countP_legal, fun s e rest hl hf hst hin => ?_⟩
  rw [step_of_event hl hin]
  have hlive : ({ s with inputs := rest } : State).ignoresEvents = false :=
    State.ignoresEvents_eq_false.mpr ⟨hf, hst⟩
  refine ⟨fun hill => takeEvent_of_illegalWord hlive (illegalWord_iff.mpr hill), fun hlegal t ht hft => ?_⟩
  have hf' : s.fault ≠ .illegalEvent := by simp [hf]
  exact hlegal (illegalWord_iff.mp (illegalWord_of_takeEvent_fault ht hf' hft))

/-! ### Where operations complete -/

/-- The answer is a next state where `b` holds, and the refusal of log entry 6 elsewhere. -/
def CompletesExactlyIf (b : Bool) (r : Answer) : Prop :=
  (b = true → ∃ t, r = .next t) ∧ (b = false → r = .refused .notApplicable)

section
variable {i : Instr} {s : State} {b : Bool} {r : Answer} {k : State → Answer}

theorem CompletesExactlyIf.always (h : ∃ t, r = .next t) : CompletesExactlyIf true r :=
  ⟨fun _ => h, nofun⟩

theorem CompletesExactlyIf.onlyIf (h : ∃ t, r = .next t) : CompletesExactlyIf b (onlyIf b r) := by
  cases b with
  | true => exact .always h
  | false => exact ⟨nofun, fun _ => rfl⟩

theorem CompletesExactlyIf.unlessIgnored (h : CompletesExactlyIf b r) :
    CompletesExactlyIf (s.ignoresEvents || b) (unlessIgnored s r) := by
  cases hs : s.ignoresEvents with
  | true =>
    rw [unlessIgnored_of_ignores hs]
    exact .always ⟨s, rfl⟩
  | false =>
    rw [unlessIgnored_of_live hs]
    exact h

/-- A row that has an effect in every state. -/
theorem CompletesExactlyIf.everywhere (h : ∃ t, r = .next t) : CompletesExactlyIf true (Machine.unlessIgnored s r) := by
  simpa using CompletesExactlyIf.unlessIgnored (s := s) (.always h)

theorem exists_next_ite {p : Prop} [Decidable p] {t u : State} :
    ∃ v, (if p then (.next t : Answer) else .next u) = .next v := by
  split <;> exact ⟨_, rfl⟩

/-- After a check, the fault and the operation that goes on both give a next state. -/
theorem exists_next_afterCheck {check : Except FaultCode State} (h : ∀ u, ∃ t, k u = .next t) :
    ∃ t, afterCheck s check k = .next t := by
  cases check with
  | error c => exact ⟨_, rfl⟩
  | ok u => exact h u

theorem exec_completesExactlyIf (i : Instr) (s : State) : CompletesExactlyIf (applicable i s) (exec i s) := by
  cases i with
  | syncDiscard | syncHit | syncEnd =>
    exact .unlessIgnored (.onlyIf (exists_next_afterCheck fun _ => ⟨_, rfl⟩))
  | accStore | accEnd => exact .unlessIgnored (.onlyIf (exists_next_afterCheck fun _ => exists_next_ite))
  | rdDataCheck | rdEndCheck => exact .everywhere (exists_next_afterCheck fun _ => ⟨_, rfl⟩)
  | srcClosed | start | openFail | sinkAck => exact .everywhere exists_next_ite
  | stop =>
    refine .everywhere ?_
    split <;> exact ⟨_, rfl⟩
  | startMisplaced | openFailMisplaced | sinkAckMisplaced | illegalData =>
    exact .unlessIgnored (.onlyIf ⟨_, rfl⟩)
  | illegalKind7 | illegalKind8F => exact .everywhere ⟨_, rfl⟩
  | shutdownIgnore =>
    have hrefused : CompletesExactlyIf false (.refused .notApplicable) := ⟨nofun, fun _ => rfl⟩
    have h := hrefused.unlessIgnored (s := s)
    rw [Bool.or_false] at h
    exact h
  | issue | loopTop => exact .onlyIf ⟨_, rfl⟩
  | decode =>
    refine .onlyIf ?_
    split <;> exact ⟨_, rfl⟩
  | field | unpack | lum | rgb => exact .always ⟨_, rfl⟩

/-- A well-formed operation has an effect in its cell of 30_encoding.md R77. -/
theorem applicable_of_selectedIn (hw : wellFormed s.cfg.S i = true) (hi : selectedIn s.st s.halted i = true) :
    applicable i s = true := by
  cases i with
  | syncDiscard => exact Bool.or_inr (Bool.and_eq_true_iff.mpr ⟨Bool.and_elim_right hi, hw⟩)
  | syncHit | accStore | syncEnd | accEnd => exact Bool.or_inr (Bool.and_elim_right hi)
  | startMisplaced | openFailMisplaced | sinkAckMisplaced =>
    exact Bool.or_inr (decide_eq_true (of_decide_eq_true (Bool.and_elim_right hi)).1)
  | illegalData => exact Bool.or_inr hw
  | shutdownIgnore => exact hi
  | issue | decode | loopTop => cases hi
  | _ => rfl

/-- Every event word selects an operation that completes. -/
theorem exists_next_exec_selects (s : State) (e : EventWord) : ∃ t, exec (s.selects e) s = .next t :=
  (exec_completesExactlyIf _ s).1 (applicable_of_selectedIn (isWordOf_decodeEvent s.cfg.S s.st s.halted e).1
    (selectedIn_decodeEvent s.cfg.S s.st s.halted e))

/-- Settle runs an operation only where it is enabled, so it completes. -/
theorem exists_next_settle (s : State) : ∃ t, settle s = .next t := by
  rcases settle_cases s with ⟨hd, e⟩ | ⟨-, hi, e⟩ | ⟨-, -, e⟩ <;> rw [e]
  · exact (exec_completesExactlyIf .decode s).1 hd
  · exact (exec_completesExactlyIf .issue s).1 hi
  · exact ⟨s, rfl⟩

theorem exists_next_takeEvent (s : State) (e : EventWord) : ∃ t, takeEvent s e = .next t := by
  obtain ⟨u, hu⟩ := exists_next_exec_selects s e
  obtain ⟨t, ht⟩ := exists_next_settle u
  exact ⟨t, takeEvent_eq_next.mpr ⟨u, hu, ht⟩⟩

/-- Under a legal configuration a step completes, whatever the host delivers next. -/
theorem exists_next_step (hl : s.cfg.legal = true) : ∃ t, step s = .next t := by
  cases hin : s.inputs with
  | nil => exact ⟨s, step_eq_next.mpr ⟨hl, .inl ⟨hin, rfl⟩⟩⟩
  | cons x rest =>
    cases x with
    | reset => exact ⟨_, step_eq_next.mpr ⟨hl, .inr (.inl ⟨rest, hin, rfl⟩)⟩⟩
    | event e =>
      rw [step_of_event hl hin]
      exact exists_next_takeEvent _ e

end

/-- Settles O44: each row's guard is its applicability, and behind the guard every branch answers a next state. -/
theorem operationsCompleteExactlyWhereApplicable : Obligations.OperationsCompleteExactlyWhereApplicable :=
  exec_completesExactlyIf

/-- Settles O45: a selected row is well formed and in its cell, so it applies, and settle runs enabled operations only. -/
theorem everyStepUnderALegalConfigurationCompletes : Obligations.EveryStepUnderALegalConfigurationCompletes :=
  fun s hl => ⟨exists_next_exec_selects s, exists_next_step hl, fun hin => step_eq_next.mpr ⟨hl, .inl ⟨hin, rfl⟩⟩⟩

end Sys2Proof.Machine

/-! ## Proofs: the source port (40_source_port.md) -/

namespace Sys2Proof.Machine

open Laws

/-! ### The checks of a response, then the row that goes on -/

section
variable {s u : State} {d : Byte} {b : Bool} {k : State → Answer}

/-- The state after a beat that leads to `u` when it is accepted (40_source_port.md R102, 60_exceptions.md R231). -/
def State.afterBeat (s u : State) : State :=
  if s.reqN = 0 then s.raiseFault .noRequest
  else if s.rspCnt = s.reqN then s.raiseFault .overlong
  else u

/-- The state after an end of a response that leads to `u` when it is accepted (40_source_port.md R103). -/
def State.afterEnd (s u : State) : State := if s.reqN = 0 then s.raiseFault .noRequest else u

theorem afterCheck_acceptBeat (hk : k { s with rspCnt := s.rspCnt + 1 } = .next u) :
    afterCheck s s.acceptBeat k = .next (s.afterBeat u) := by
  rcases s.acceptBeat_cases with ⟨hr, e⟩ | ⟨hr, hb, e⟩ | ⟨hr, hb, e⟩
  · simp [e, afterCheck, State.afterBeat, hr]
  · simp [e, afterCheck, State.afterBeat, hr, hb]
  · simp [e, afterCheck, State.afterBeat, hr, hb, hk]

theorem afterCheck_acceptEnd (hk : k { s with reqN := 0, rspCnt := 0 } = .next u) :
    afterCheck s s.acceptEnd k = .next (s.afterEnd u) := by
  rcases s.acceptEnd_cases with ⟨hr, e⟩ | ⟨hr, e⟩
  · simp [e, afterCheck, State.afterEnd, hr]
  · simp [e, afterCheck, State.afterEnd, hr, hk]

theorem onlyIf_of_true (h : b = true) (r : Answer) : onlyIf b r = r := if_pos h

/-! ### The port's rows in a block that takes events -/

theorem exec_rdDataCheck (h : s.ignoresEvents = false) :
    exec (.rdDataCheck d) s = .next (s.afterBeat { s with rspCnt := s.rspCnt + 1 }) :=
  (unlessIgnored_of_live h _).trans (afterCheck_acceptBeat rfl)

theorem exec_syncDiscard (h : s.ignoresEvents = false) (hst : s.st = .syncing) (hd : d ≠ s.cfg.S) :
    exec (.syncDiscard d) s = .next (s.afterBeat { s with rspCnt := s.rspCnt + 1 }) :=
  (unlessIgnored_of_live h _).trans ((onlyIf_of_true (by simp [hst, hd]) _).trans (afterCheck_acceptBeat rfl))

theorem exec_syncHit (h : s.ignoresEvents = false) (hst : s.st = .syncing) :
    exec .syncHit s = .next (s.afterBeat { s with rspCnt := s.rspCnt + 1, cnt := 0, st := .accumulating }) :=
  (unlessIgnored_of_live h _).trans ((onlyIf_of_true (by simp [hst]) _).trans (afterCheck_acceptBeat rfl))

theorem exec_accStore (h : s.ignoresEvents = false) (hst : s.st = .accumulating) :
    exec (.accStore d) s = .next (s.afterBeat
      (if s.cnt < s.cfg.P then
        { s with rspCnt := s.rspCnt + 1, pbuf := Memory.write s.pbuf s.cnt d, cnt := s.cnt + 1 }
       else ({ s with rspCnt := s.rspCnt + 1 } : State).raiseFault .unwritten)) :=
  (unlessIgnored_of_live h _).trans
    ((onlyIf_of_true (by simp [hst]) _).trans (afterCheck_acceptBeat (apply_ite _ _ _ _).symm))

theorem exec_rdEndCheck (h : s.ignoresEvents = false) :
    exec .rdEndCheck s = .next (s.afterEnd { s with reqN := 0, rspCnt := 0 }) :=
  (unlessIgnored_of_live h _).trans (afterCheck_acceptEnd rfl)

theorem exec_syncEnd (h : s.ignoresEvents = false) (hst : s.st = .syncing) :
    exec .syncEnd s = .next (s.afterEnd { s with reqN := 0, rspCnt := 0 }) :=
  (unlessIgnored_of_live h _).trans ((onlyIf_of_true (by simp [hst]) _).trans (afterCheck_acceptEnd rfl))

theorem exec_accEnd (h : s.ignoresEvents = false) (hst : s.st = .accumulating) :
    exec .accEnd s = .next (s.afterEnd
      (if s.cnt = s.cfg.P then { s with reqN := 0, rspCnt := 0, st := .decoding }
       else { s with reqN := 0, rspCnt := 0 })) :=
  (unlessIgnored_of_live h _).trans
    ((onlyIf_of_true (by simp [hst]) _).trans (afterCheck_acceptEnd (apply_ite _ _ _ _).symm))

theorem exec_srcClosed (h : s.ignoresEvents = false) :
    exec .srcClosed s = .next (s.afterEnd (s.enterShutdown .sourceClosed)) :=
  (unlessIgnored_of_live h _).trans (apply_ite _ _ _ _).symm

/-! ### The words in a block that takes events -/

/-- Where a block takes events, the word decides with `st` alone (30_encoding.md R77). -/
theorem State.selects_of_live (h : s.ignoresEvents = false) (e : EventWord) :
    s.selects e = decodeEvent s.cfg.S s.st false e := by
  rw [State.selects, State.halted_eq_false.mpr (State.fault_eq_none_of_live h)]

theorem State.selects_data (h : s.ignoresEvents = false) :
    s.selects (eventWord 0#4 d) = decodeRdData s.cfg.S s.st d := by
  rw [State.selects_of_live h, decodeEvent_data d (State.st_ne_shutdown_of_live h)]

theorem State.selects_data_syncing (h : s.ignoresEvents = false) (hst : s.st = .syncing) :
    s.selects (eventWord 0#4 d) = if d = s.cfg.S then .syncHit else .syncDiscard d := by
  rw [State.selects_data h, hst]
  rfl

theorem State.selects_data_accumulating (h : s.ignoresEvents = false) (hst : s.st = .accumulating) :
    s.selects (eventWord 0#4 d) = .accStore d := by
  rw [State.selects_data h, hst]
  rfl

theorem State.selects_data_elsewhere (h : s.ignoresEvents = false) (hs : s.st ≠ .syncing)
    (ha : s.st ≠ .accumulating) : s.selects (eventWord 0#4 d) = .rdDataCheck d := by
  rw [State.selects_data h]
  cases hst : s.st with
  | syncing => exact absurd hst hs
  | accumulating => exact absurd hst ha
  | _ => rfl

theorem State.selects_end (h : s.ignoresEvents = false) : s.selects 0x100#12 = decodeRdEnd s.st := by
  obtain ⟨hend, -⟩ := decodeEvent_fixed (S := s.cfg.S) (State.st_ne_shutdown_of_live h)
  rw [State.selects_of_live h, hend]

theorem State.selects_end_syncing (h : s.ignoresEvents = false) (hst : s.st = .syncing) :
    s.selects 0x100#12 = .syncEnd := by
  rw [State.selects_end h, hst]
  rfl

theorem State.selects_end_accumulating (h : s.ignoresEvents = false) (hst : s.st = .accumulating) :
    s.selects 0x100#12 = .accEnd := by
  rw [State.selects_end h, hst]
  rfl

theorem State.selects_end_elsewhere (h : s.ignoresEvents = false) (hs : s.st ≠ .syncing)
    (ha : s.st ≠ .accumulating) : s.selects 0x100#12 = .rdEndCheck := by
  rw [State.selects_end h]
  cases hst : s.st with
  | syncing => exact absurd hst hs
  | accumulating => exact absurd hst ha
  | _ => rfl

theorem State.selects_closed (h : s.ignoresEvents = false) : s.selects 0x200#12 = .srcClosed := by
  obtain ⟨-, hclosed, -⟩ := decodeEvent_fixed (S := s.cfg.S) (State.st_ne_shutdown_of_live h)
  rw [State.selects_of_live h, hclosed]

end

/-- Settles O5: the row is R102's checks and nothing more. -/
theorem rdDataCheckCountsTheBeatOrFaults : Obligations.RdDataCheckCountsTheBeatOrFaults :=
  fun _ _ hf hst => exec_rdDataCheck (State.ignoresEvents_eq_false.mpr ⟨hf, hst⟩)

/-- Settles O6: the word selects by `st`, and each row is R102's checks, then its own rule. -/
theorem dataEventFollowsTheBeatRule : Obligations.DataEventFollowsTheBeatRule := by
  intro s d hf hst
  have hlive : s.ignoresEvents = false := State.ignoresEvents_eq_false.mpr ⟨hf, hst⟩
  by_cases hs : s.st = .syncing
  · rw [State.selects_data_syncing hlive hs, if_pos hs]
    by_cases hd : d = s.cfg.S
    · rw [if_pos hd, if_pos hd]
      exact exec_syncHit hlive hs
    · rw [if_neg hd, if_neg hd]
      exact exec_syncDiscard hlive hs hd
  · rw [if_neg hs]
    by_cases ha : s.st = .accumulating
    · rw [State.selects_data_accumulating hlive ha, if_pos ha]
      exact exec_accStore hlive ha
    · rw [State.selects_data_elsewhere hlive hs ha, if_neg ha]
      exact exec_rdDataCheck hlive

/-- Settles O7: the row is R103's check and clearing and nothing more. -/
theorem rdEndCheckClearsTheRequestOrFaults : Obligations.RdEndCheckClearsTheRequestOrFaults :=
  fun _ hf hst => exec_rdEndCheck (State.ignoresEvents_eq_false.mpr ⟨hf, hst⟩)

/-- Settles O8: the word selects by `st`, and only ACC_END adds to R103. -/
theorem endEventFollowsTheEndRule : Obligations.EndEventFollowsTheEndRule := by
  intro s hf hst
  have hlive : s.ignoresEvents = false := State.ignoresEvents_eq_false.mpr ⟨hf, hst⟩
  by_cases ha : s.st = .accumulating
  · have hcomplete : (s.st = .accumulating ∧ s.cnt = s.cfg.P) ↔ s.cnt = s.cfg.P := and_iff_right ha
    simp only [hcomplete, State.selects_end_accumulating hlive ha]
    exact exec_accEnd hlive ha
  · rw [if_neg (mt And.left ha)]
    by_cases hs : s.st = .syncing
    · rw [State.selects_end_syncing hlive hs]
      exact exec_syncEnd hlive hs
    · rw [State.selects_end_elsewhere hlive hs ha]
      exact exec_rdEndCheck hlive

/-- Settles O9: the word selects SRC_CLOSED in every state that takes events. -/
theorem srcClosedShutsDownOrFaults : Obligations.SrcClosedShutsDownOrFaults := by
  intro s hf hst
  have hlive : s.ignoresEvents = false := State.ignoresEvents_eq_false.mpr ⟨hf, hst⟩
  exact ⟨State.selects_closed hlive, exec_srcClosed hlive⟩

/-- ISSUE is the enabled operation exactly where R100 enables it: DECODE is not enabled there. -/
theorem State.enabledOperation_eq_issue_iff {s : State} :
    s.enabledOperation = some .issue ↔ s.issueEnabled = true := by
  rcases s.enabledOperation_cases with ⟨hd, he⟩ | ⟨-, hi, he⟩ | ⟨-, hi, he⟩
  · obtain ⟨-, hst⟩ := State.decodeEnabled_iff.mp hd
    simp [he, State.issueEnabled, hst]
  · simp [he, hi]
  · simp [he, hi]

/-- Settles O10: R100's enabling condition and its request size, by the two states it is enabled in. -/
theorem issueRequestsOneByteOrTheDeficit : Obligations.IssueRequestsOneByteOrTheDeficit := by
  refine ⟨fun s => State.enabledOperation_eq_issue_iff.trans State.issueEnabled_iff,
    fun s hf hst hr => ?_, fun s hf hst hr => ?_⟩
  · have hsize : s.requestSize = 1 := by simp [State.requestSize, hst]
    have h := execIssue_of_enabled (State.issueEnabled_iff.mpr ⟨hf, .inl hst, hr⟩)
    rwa [hsize] at h
  · have hsize : s.requestSize = s.cfg.P - s.cnt := by simp [State.requestSize, hst]
    have h := execIssue_of_enabled (State.issueEnabled_iff.mpr ⟨hf, .inr hst, hr⟩)
    rwa [hsize] at h

/-! ### The host's contract -/

section
variable {s t u : State} {e : EventWord} {d : Byte}

/-- Settle raises no fault between two events of a live block, so an event faults where its operation does. -/
theorem takeEvent_fault_eq_none_iff (hinv : Inv s) (hf : s.fault = .none) (hu : exec (s.selects e) s = .next u)
    (ht : takeEvent s e = .next t) : t.fault = .none ↔ u.fault = .none := by
  obtain ⟨hb, hlive⟩ := inv_iff.mp hinv
  have hsettle : settle u = .next t := by rwa [takeEvent, hu] at ht
  by_cases hfu : u.fault = .none
  · have hbefore : BeforeSettle u :=
      (exec_effect hu).beforeSettle (selectedIn_decodeEvent _ _ _ e) hb (hlive hf) hfu
    obtain ⟨t', ht', hft', -⟩ := hbefore.settle ((exec_effect hu).bounded hb) hfu
    cases ht'.symm.trans hsettle
    exact iff_of_true hft' hfu
  · rw [settle_of_ignores (State.ignoresEvents_iff.mpr (.inl hfu))] at hsettle
    cases hsettle
    exact Iff.rfl

/-! #### The duty for each word -/

theorem hostDuty_of_illegalWord (h : illegalWord e = true) : hostDuty s e = false := by simp [hostDuty, h]

theorem hostDuty_data : hostDuty s (eventWord 0#4 d) = true ↔ s.reqN ≠ 0 ∧ s.rspCnt < s.reqN := by
  simp [hostDuty, illegalWord_eventWord_zero]

theorem hostDuty_end : hostDuty s 0x100#12 = true ↔ s.reqN ≠ 0 := decide_eq_true_iff

theorem hostDuty_closed : hostDuty s 0x200#12 = true ↔ s.reqN ≠ 0 := decide_eq_true_iff

theorem hostDuty_start : hostDuty s 0x300#12 = true ↔ s.st = .idle := decide_eq_true_iff

theorem hostDuty_stop : hostDuty s 0x400#12 = true := rfl

theorem hostDuty_openFail : hostDuty s 0x500#12 = true ↔ s.st = .idle := decide_eq_true_iff

theorem hostDuty_ack : hostDuty s 0x600#12 = true ↔ s.st = .presenting := decide_eq_true_iff

/-! #### Where the operation a word selects faults -/

theorem State.loopTop_fault (s : State) : s.loopTop.fault = s.fault := by
  rcases s.loopTop_cases with ⟨-, e⟩ | ⟨-, e⟩ <;> simp [e]

theorem State.afterBeat_fault_eq_none_iff (hle : s.rspCnt ≤ s.reqN)
    (hu : s.reqN ≠ 0 → s.rspCnt ≠ s.reqN → u.fault = .none) :
    (s.afterBeat u).fault = .none ↔ s.reqN ≠ 0 ∧ s.rspCnt < s.reqN := by
  unfold State.afterBeat
  split
  · simp [*]
  · split
    · simp [*]
    · exact iff_of_true (hu ‹_› ‹_›) ⟨‹_›, Nat.lt_of_le_of_ne hle ‹_›⟩

theorem State.afterEnd_fault_eq_none_iff (hu : u.fault = .none) :
    (s.afterEnd u).fault = .none ↔ s.reqN ≠ 0 := by
  unfold State.afterEnd
  split
  · simp [*]
  · exact iff_of_true hu ‹_›

/-- A choice between going on and a fault faults where it does not go on. -/
theorem ite_fault_eq_none_iff {p : Prop} [Decidable p] {c : FaultCode} (hu : u.fault = .none) (hc : c ≠ .none) :
    (if p then u else s.raiseFault c).fault = .none ↔ p := by
  split
  · exact iff_of_true hu ‹_›
  · exact iff_of_false hc ‹_›

/-- A row that goes on where `p` holds, and its misplaced row elsewhere (44_control.md R197). -/
theorem exec_ite_misplaced {p : Prop} [Decidable p] {i j : Instr} {v : State} (h : s.ignoresEvents = false)
    (hi : exec i s = unlessIgnored s (if p then .next u else .next v))
    (hj : exec j s = unlessIgnored s (onlyIf (decide ¬p) (.next v))) :
    exec (if p then i else j) s = .next (if p then u else v) := by
  rw [unlessIgnored_of_live h] at hi hj
  split
  · exact hi.trans (if_pos ‹_›)
  · exact hj.trans (onlyIf_of_true (decide_eq_true ‹_›) _)

theorem exec_selects_start (h : s.ignoresEvents = false) :
    exec (s.selects 0x300#12) s = .next (if s.st = .idle then s.loopTop else s.raiseFault .badStart) := by
  obtain ⟨-, -, hstart, -⟩ := decodeEvent_fixed (S := s.cfg.S) (State.st_ne_shutdown_of_live h)
  rw [State.selects_of_live h, hstart]
  exact exec_ite_misplaced h rfl rfl

theorem exec_selects_openFail (h : s.ignoresEvents = false) :
    exec (s.selects 0x500#12) s =
      .next (if s.st = .idle then s.enterShutdown .sourceUnavailable else s.raiseFault .badOpenFail) := by
  obtain ⟨-, -, -, -, hfail, -⟩ := decodeEvent_fixed (S := s.cfg.S) (State.st_ne_shutdown_of_live h)
  rw [State.selects_of_live h, hfail]
  exact exec_ite_misplaced h rfl rfl

theorem exec_selects_ack (h : s.ignoresEvents = false) :
    exec (s.selects 0x600#12) s = .next (if s.st = .presenting then s.loopTop else s.raiseFault .badAck) := by
  obtain ⟨-, -, -, -, -, hack⟩ := decodeEvent_fixed (S := s.cfg.S) (State.st_ne_shutdown_of_live h)
  rw [State.selects_of_live h, hack]
  exact exec_ite_misplaced h rfl rfl

/-- A stop is latched, or acted on at once (44_control.md R194). -/
theorem exec_selects_stop_cases (h : s.ignoresEvents = false) :
    (s.cfg.stopSampling = .loopTop ∧ exec (s.selects 0x400#12) s = .next { s with stopPend := true }) ∨
    (s.cfg.stopSampling = .anyStep ∧ exec (s.selects 0x400#12) s = .next (s.enterShutdown .stopped)) := by
  obtain ⟨-, -, -, hstop, -⟩ := decodeEvent_fixed (S := s.cfg.S) (State.st_ne_shutdown_of_live h)
  have hexec : exec (s.selects 0x400#12) s = execStop s := by
    rw [State.selects_of_live h, hstop]
    rfl
  rw [hexec, execStop, unlessIgnored_of_live h]
  cases s.cfg.stopSampling with
  | loopTop => exact .inl ⟨rfl, rfl⟩
  | anyStep => exact .inr ⟨rfl, rfl⟩

theorem exec_selects_closed (h : s.ignoresEvents = false) :
    exec (s.selects 0x200#12) s = .next (s.afterEnd (s.enterShutdown .sourceClosed)) := by
  rw [State.selects_closed h]
  exact exec_srcClosed h

theorem exec_selects_illegal (h : s.ignoresEvents = false) (he : illegalWord e = true) :
    exec (s.selects e) s = .next (s.raiseFault .illegalEvent) := by
  rw [State.selects_of_live h, decodeEvent_illegal (State.st_ne_shutdown_of_live h) he]
  exact exec_of_isReservedRow (isReservedRow_decodeIllegal _ _) (isWordOf_decodeIllegal (S := s.cfg.S) he).1 h

/-- The operation a word selects faults exactly when the word breaks the host's contract: every check of a rule is one
of the host's duties, and the invariant leaves room for every beat it accepts (10_state.md R35). -/
theorem exists_exec_fault_eq_none_iff (hinv : Inv s) (h : s.ignoresEvents = false) (e : EventWord) :
    ∃ u, exec (s.selects e) s = .next u ∧ (u.fault = .none ↔ hostDuty s e = true) := by
  obtain ⟨hf, hst⟩ := State.ignoresEvents_eq_false.mp h
  have hloop : s.loopTop.fault = .none := s.loopTop_fault.trans hf
  cases hw : illegalWord e with
  | true => exact ⟨_, exec_selects_illegal h hw, by simp [hostDuty_of_illegalWord hw]⟩
  | false =>
    rcases legalWord_cases hw with ⟨d, rfl⟩ | rfl | rfl | rfl | rfl | rfl | rfl
    · refine ⟨_, dataEventFollowsTheBeatRule s d hf hst, ?_⟩
      rw [hostDuty_data]
      refine State.afterBeat_fault_eq_none_iff hinv.rspLe fun hr hb => ?_
      split
      · split <;> exact hf
      · split
        · obtain ⟨-, -, hroom⟩ := (hinv.live hf).beat_fits ‹_› hinv.rspLe hb
          rw [if_pos hroom]
          exact hf
        · exact hf
    · refine ⟨_, endEventFollowsTheEndRule s hf hst, ?_⟩
      rw [hostDuty_end]
      refine State.afterEnd_fault_eq_none_iff ?_
      split <;> exact hf
    · refine ⟨_, exec_selects_closed h, ?_⟩
      rw [hostDuty_closed]
      exact State.afterEnd_fault_eq_none_iff hf
    · refine ⟨_, exec_selects_start h, ?_⟩
      rw [hostDuty_start]
      exact ite_fault_eq_none_iff hloop nofun
    · rcases exec_selects_stop_cases h with ⟨-, hexec⟩ | ⟨-, hexec⟩
      · exact ⟨_, hexec, iff_of_true hf hostDuty_stop⟩
      · exact ⟨_, hexec, iff_of_true hf hostDuty_stop⟩
    · refine ⟨_, exec_selects_openFail h, ?_⟩
      rw [hostDuty_openFail]
      exact ite_fault_eq_none_iff hf nofun
    · refine ⟨_, exec_selects_ack h, ?_⟩
      rw [hostDuty_ack]
      exact ite_fault_eq_none_iff hloop nofun

end

/-- Settles O53: the operation a word selects faults exactly when the host's duty is broken, and settle adds no
fault. -/
theorem eventFaultsExactlyWhenTheHostBreaksItsContract :
    Obligations.EventFaultsExactlyWhenTheHostBreaksItsContract := by
  intro s t e rest hinv hf hst hin ht
  rw [step_of_event hinv.legal hin] at ht
  have hinv' : Inv { s with inputs := rest } := hinv.withOwnFields rest s.outs s.fnOut
  obtain ⟨u, hu, hduty⟩ := exists_exec_fault_eq_none_iff hinv' (State.ignoresEvents_eq_false.mpr ⟨hf, hst⟩) e
  exact (takeEvent_fault_eq_none_iff hinv' hf hu ht).trans hduty

/-! ### Delivering inputs -/

/-- Delivered the inputs `ins` one after another, the block goes from `s` to `t`, whatever the host has yet to deliver
after them. -/
def Delivers (s : State) (ins : List Input) (t : State) : Prop :=
  ∀ rest, Host.Core.run core ins.length { s with inputs := ins ++ rest } = .next { t with inputs := rest }

section
variable {s t u : State} {ins ins' : List Input} {e : EventWord}

theorem Delivers.nil (s : State) : Delivers s [] s := fun _ => rfl

/-- One event that answers a next state, then the rest. -/
theorem Delivers.cons (hl : s.cfg.legal = true)
    (ht : ∀ rest, takeEvent { s with inputs := rest } e = .next { t with inputs := rest }) (h : Delivers t ins u) :
    Delivers s (.event e :: ins) u := by
  intro rest
  have hstep : step { s with inputs := .event e :: (ins ++ rest) } = .next { t with inputs := ins ++ rest } :=
    (step_of_event (s := { s with inputs := .event e :: (ins ++ rest) }) hl rfl).trans (ht _)
  rw [List.length_cons, run_succ, List.cons_append, hstep]
  exact h rest

theorem run_add (m n : Nat) (s : State) :
    Host.Core.run core (m + n) s = Answer.andThen (Host.Core.run core m s) (Host.Core.run core n) := by
  induction m generalizing s with
  | zero => rw [Nat.zero_add]; rfl
  | succ m ih =>
    rw [Nat.succ_add, run_succ, run_succ]
    cases step s with
    | next t => exact ih t
    | fault f => rfl
    | refused q => rfl

theorem Delivers.append (h : Delivers s ins t) (h' : Delivers t ins' u) : Delivers s (ins ++ ins') u := by
  intro rest
  rw [List.length_append, run_add, List.append_assoc, h]
  exact h' rest

/-- A block that waits on a request settles as it is. -/
theorem settle_of_requested (hd : s.st ≠ .decoding) (hr : s.reqN ≠ 0) : settle s = .next s := by
  rcases settle_cases s with ⟨h, -⟩ | ⟨-, h, -⟩ | ⟨-, -, e⟩
  · exact absurd (State.decodeEnabled_iff.mp h).2 hd
  · obtain ⟨-, -, h0⟩ := State.issueEnabled_iff.mp h
    exact absurd h0 hr
  · exact e

end

/-! ### A list of bytes stored -/

/-- Entries `a`, `a + 1`, … become `vs`, one after another. -/
def Memory.writeList {w : Nat} : Memory w → Nat → List (BitVec w) → Memory w
  | m, _, [] => m
  | m, a, v :: vs => Memory.writeList (Memory.write m a v) (a + 1) vs

section
variable {w bound a : Nat}

theorem Memory.writeList_append (m : Memory w) (a : Nat) (vs us : List (BitVec w)) :
    Memory.writeList m a (vs ++ us) = Memory.writeList (Memory.writeList m a vs) (a + vs.length) us := by
  induction vs generalizing m a with
  | nil => rfl
  | cons v vs ih =>
    rw [List.cons_append, Memory.writeList, ih, Memory.writeList, List.length_cons, Nat.add_right_comm, Nat.add_assoc]

theorem Memory.read_writeList_below (m : Memory w) (vs : List (BitVec w)) {j : Nat} (h : j < a) :
    Memory.read (Memory.writeList m a vs) j = Memory.read m j := by
  induction vs generalizing m a with
  | nil => rfl
  | cons v vs ih =>
    rw [Memory.writeList, ih _ (Nat.lt_succ_of_lt h), Memory.read_write_other m v (Nat.ne_of_lt h)]

theorem Memory.read_writeList_add (m : Memory w) (a : Nat) (vs : List (BitVec w)) {k : Nat} (h : k < vs.length) :
    Memory.read (Memory.writeList m a vs) (a + k) = vs[k]? := by
  induction vs generalizing m a k with
  | nil => cases h
  | cons v vs ih =>
    rw [Memory.writeList]
    cases k with
    | zero => simp [Memory.read_writeList_below _ vs (Nat.lt_succ_self a)]
    | succ k =>
      rw [Nat.add_comm k 1, ← Nat.add_assoc, ih _ _ (Nat.lt_of_succ_lt_succ h), Nat.add_comm 1 k,
        List.getElem?_cons_succ]

theorem Memory.wf_writeList {m : Memory w} {vs : List (BitVec w)} (hm : Memory.wf bound m = true)
    (h : a + vs.length ≤ bound) : Memory.wf bound (Memory.writeList m a vs) = true := by
  induction vs generalizing m a with
  | nil => exact hm
  | cons v vs ih =>
    rw [List.length_cons] at h
    exact ih (Memory.wf_write v hm (by omega)) (by omega)

/-- A whole array stored reads back whole, whatever it held before. -/
theorem Memory.readRange_writeList (m : Memory w) (vs : List (BitVec w)) :
    Memory.readRange (Memory.writeList m 0 vs) 0 vs.length = some vs :=
  Memory.readRange_eq_some.mpr ⟨rfl, fun _ hk => Memory.read_writeList_add m 0 vs hk⟩

/-- An array of exactly `bound` values stored holds these and nothing else. -/
theorem Memory.read_writeList_full {m : Memory w} {vs : List (BitVec w)} (hm : Memory.wf bound m = true)
    (h : vs.length = bound) (j : Nat) : Memory.read (Memory.writeList m 0 vs) j = vs[j]? := by
  by_cases hj : j < vs.length
  · simpa using Memory.read_writeList_add m 0 vs hj
  · have hwf : Memory.wf bound (Memory.writeList m 0 vs) = true := Memory.wf_writeList hm (by omega)
    rw [Memory.read_ge_of_wf hwf (by omega), List.getElem?_eq_none (Nat.not_lt.mp hj)]

end

/-! ### Collecting a payload -/

/-- A live block in the middle of a payload, its outstanding request issued in ACCUMULATING: what is still asked for and
not received is what the payload still lacks (10_state.md R35). -/
structure Collects (s : State) : Prop where
  legal : s.cfg.legal = true
  noFault : s.fault = .none
  accumulating : s.st = .accumulating
  balance : s.reqN + s.cnt = s.cfg.P + s.rspCnt

/-- The state after the payload bytes `bs`. -/
def State.store (s : State) (bs : List Byte) : State :=
  { s with rspCnt := s.rspCnt + bs.length, cnt := s.cnt + bs.length, pbuf := Memory.writeList s.pbuf s.cnt bs }

/-- The state after the request for what the payload still lacks. -/
def State.ask (s : State) : State :=
  { s with reqN := s.cfg.P - s.cnt, rspCnt := 0, outs := s.outs ++ [.rdReq (s.cfg.P - s.cnt)] }

/-- The state after the end of the response that completes the payload `bs`. -/
def State.present (s : State) (bs : List Byte) : State :=
  { s with st := .presenting, reqN := 0, rspCnt := 0, raster := Memory.ofValues 0 (unpackPayload bs),
           outs := s.outs ++ [.frame (unpackPayload bs)] }

section
variable {s : State} {bs : List Byte}

theorem Collects.withInputs (h : Collects s) (ins : List Input) : Collects { s with inputs := ins } := { h with }

theorem Collects.live (h : Collects s) : s.ignoresEvents = false :=
  State.ignoresEvents_eq_false.mpr ⟨h.noFault, by simp [h.accumulating]⟩

theorem Collects.store (h : Collects s) (bs : List Byte) : Collects (s.store bs) :=
  { h with
    balance := by
      have hbal := h.balance
      show s.reqN + (s.cnt + bs.length) = s.cfg.P + (s.rspCnt + bs.length)
      omega }

theorem Collects.ask (h : Collects s) (hc : s.cnt ≤ s.cfg.P) : Collects s.ask :=
  { h with balance := Nat.sub_add_cancel hc }

/-- With room left a byte is within the request, and is stored. -/
theorem takeEvent_data_of_collects (h : Collects s) (hc : s.cnt < s.cfg.P) (d : Byte) :
    takeEvent s (dataWord d) = .next (s.store [d]) := by
  have hbal := h.balance
  have hexec := exec_accStore (d := d) h.live h.accumulating
  rw [← State.selects_data_accumulating h.live h.accumulating, if_pos hc, State.afterBeat, if_neg (by omega),
    if_neg (by omega)] at hexec
  refine takeEvent_eq_next.mpr ⟨_, hexec, settle_of_requested ?_ ?_⟩
  · simp [h.accumulating]
  · show s.reqN ≠ 0
    omega

/-- An end with room left asks for the deficit. -/
theorem takeEvent_end_of_collects (h : Collects s) (hc : s.cnt < s.cfg.P) :
    takeEvent s 0x100#12 = .next s.ask := by
  have hbal := h.balance
  have hexec := exec_accEnd h.live h.accumulating
  rw [← State.selects_end_accumulating h.live h.accumulating, if_neg (Nat.ne_of_lt hc), State.afterEnd,
    if_neg (by omega)] at hexec
  have hissue : ({ s with reqN := 0, rspCnt := 0 } : State).issueEnabled = true :=
    State.issueEnabled_iff.mpr ⟨h.noFault, .inr h.accumulating, rfl⟩
  refine takeEvent_eq_next.mpr ⟨_, hexec, (settle_of_issueEnabled hissue).trans ?_⟩
  simp [State.requestSize, h.accumulating, State.ask, State.emit]

/-- The end of a response that completed the payload presents it. -/
theorem takeEvent_end_of_complete (h : Collects s) (hr : s.reqN ≠ 0) (hc : s.cnt = s.cfg.P)
    (hbs : Memory.readRange s.pbuf 0 s.cfg.P = some bs) : takeEvent s 0x100#12 = .next (s.present bs) := by
  have hexec := exec_accEnd h.live h.accumulating
  rw [← State.selects_end_accumulating h.live h.accumulating, if_pos hc, State.afterEnd, if_neg hr] at hexec
  exact takeEvent_eq_next.mpr
    ⟨_, hexec, settle_of_decodeEnabled (State.decodeEnabled_iff.mpr ⟨h.noFault, rfl⟩) hbs⟩

/-! #### Responses -/

theorem State.store_cons (s : State) (b : Byte) (bs : List Byte) : s.store (b :: bs) = (s.store [b]).store bs := by
  simp [State.store, Memory.writeList, Nat.add_assoc, Nat.add_comm]

theorem delivers_data (h : Collects s) (hc : s.cnt + bs.length ≤ s.cfg.P) :
    Delivers s (bs.map fun b => .event (dataWord b)) (s.store bs) := by
  induction bs generalizing s with
  | nil => exact .nil s
  | cons b bs ih =>
    rw [List.length_cons] at hc
    have hnext : (s.store [b]).cnt + bs.length ≤ (s.store [b]).cfg.P := by
      show s.cnt + 1 + bs.length ≤ s.cfg.P
      omega
    rw [State.store_cons]
    exact .cons h.legal (fun rest => takeEvent_data_of_collects (h.withInputs rest) (by simp only; omega) b)
      (ih (h.store [b]) hnext)

theorem responseInputs_eq (bs : List Byte) :
    responseInputs bs = (bs.map fun b => .event (dataWord b)) ++ [.event 0x100#12] := by
  simp [responseInputs, chunkWords]

/-- A response that leaves the payload incomplete. -/
theorem delivers_response (h : Collects s) (hc : s.cnt + bs.length < s.cfg.P) :
    Delivers s (responseInputs bs) (s.store bs).ask := by
  rw [responseInputs_eq]
  exact (delivers_data h (Nat.le_of_lt hc)).append
    (.cons h.legal (fun rest => takeEvent_end_of_collects ((h.store bs).withInputs rest) hc) (.nil _))

/-- The response that completes the payload `bs'`. -/
theorem delivers_lastResponse {bs' : List Byte} (h : Collects s) (hc : s.cnt < s.cfg.P)
    (hlen : s.cnt + bs.length = s.cfg.P)
    (hread : Memory.readRange (Memory.writeList s.pbuf s.cnt bs) 0 s.cfg.P = some bs') :
    Delivers s (responseInputs bs) ((s.store bs).present bs') := by
  have hreq : s.reqN ≠ 0 := by
    have := h.balance
    omega
  rw [responseInputs_eq]
  exact (delivers_data h (Nat.le_of_eq hlen)).append
    (.cons h.legal (fun rest => takeEvent_end_of_complete ((h.store bs).withInputs rest) hreq hlen hread) (.nil _))

end

/-- The requests made after responses that leave `n` bytes lacking before the first, each for the deficit left. -/
def deficits : Nat → List (List Byte) → List Nat
  | _, [] => []
  | n, c :: cs => (n - c.length) :: deficits (n - c.length) cs

theorem deficits_length (n : Nat) (chunks : List (List Byte)) : (deficits n chunks).length = chunks.length := by
  induction chunks generalizing n with
  | nil => rfl
  | cons c cs ih => rw [deficits, List.length_cons, ih, List.length_cons]

theorem deficits_getElem? (n : Nat) {chunks : List (List Byte)} {k : Nat} (h : k < chunks.length) :
    (deficits n chunks)[k]? = some (n - (chunks.take (k + 1)).flatten.length) := by
  induction chunks generalizing n k with
  | nil => cases h
  | cons c cs ih =>
    cases k with
    | zero => simp [deficits]
    | succ k =>
      rw [deficits, List.getElem?_cons_succ, ih _ (Nat.lt_of_succ_lt_succ h), List.take_succ_cons, List.flatten_cons,
        List.length_append, Nat.sub_sub]

/-- The state after the responses `chunks`, none of which completes the payload. -/
def State.collect (s : State) (chunks : List (List Byte)) : State :=
  { s.store chunks.flatten with
    reqN := s.cfg.P - (s.cnt + chunks.flatten.length)
    rspCnt := 0
    outs := s.outs ++ (deficits (s.cfg.P - s.cnt) chunks).map .rdReq }

section
variable {s : State} {chunks : List (List Byte)}

theorem State.collect_nil (h : Collects s) (hr : s.rspCnt = 0) : s.collect [] = s := by
  have hreq : s.cfg.P - s.cnt = s.reqN := by
    have := h.balance
    omega
  show { s with reqN := s.cfg.P - s.cnt, rspCnt := 0, outs := s.outs ++ [] } = s
  rw [hreq, ← hr, List.append_nil]

theorem State.collect_cons (s : State) (c : List Byte) (cs : List (List Byte)) :
    s.collect (c :: cs) = (s.store c).ask.collect cs := by
  simp [State.collect, State.store, State.ask, deficits, Memory.writeList_append, Nat.add_assoc, Nat.sub_sub]

theorem Collects.collect (h : Collects s) (hc : s.cnt + chunks.flatten.length ≤ s.cfg.P) :
    Collects (s.collect chunks) :=
  { h with balance := Nat.sub_add_cancel hc }

theorem delivers_responses (h : Collects s) (hr : s.rspCnt = 0) (hc : s.cnt + chunks.flatten.length < s.cfg.P) :
    Delivers s (responsesInputs chunks) (s.collect chunks) := by
  induction chunks generalizing s with
  | nil =>
    rw [State.collect_nil h hr]
    exact .nil s
  | cons c cs ih =>
    rw [List.flatten_cons, List.length_append] at hc
    have hask : Collects (s.store c).ask := (h.store c).ask (by simp only [State.store]; omega)
    have hnext : (s.store c).ask.cnt + cs.flatten.length < (s.store c).ask.cfg.P := by
      show s.cnt + c.length + cs.flatten.length < s.cfg.P
      omega
    rw [State.collect_cons]
    exact (delivers_response h (by omega)).append (ih hask rfl hnext)

/-- A whole payload, from its first request on. -/
theorem delivers_payload {last : List Byte} (h : Collects s) (hcnt : s.cnt = 0) (hr : s.rspCnt = 0)
    (hlen : (chunks.flatten ++ last).length = s.cfg.P) (hc : chunks.flatten.length < s.cfg.P) :
    Delivers s (responsesInputs (chunks ++ [last]))
      (((s.collect chunks).store last).present (chunks.flatten ++ last)) := by
  have hread := Memory.readRange_writeList s.pbuf (chunks.flatten ++ last)
  rw [Memory.writeList_append, hlen] at hread
  rw [List.length_append] at hlen
  have hsplit : responsesInputs (chunks ++ [last]) = responsesInputs chunks ++ responseInputs last := by
    simp [responsesInputs]
  rw [hsplit]
  refine (delivers_responses h hr (by omega)).append (delivers_lastResponse (h.collect (by omega)) ?_ ?_ ?_)
  · show s.cnt + chunks.flatten.length < s.cfg.P
    omega
  · show s.cnt + chunks.flatten.length + last.length = s.cfg.P
    omega
  · simpa only [State.collect, State.store, hcnt] using hread

end

/-- Settles O58, by induction over the responses and over the bytes of each: the bytes are stored in order, and a
response's end asks for the deficit or presents the payload. -/
theorem payloadIsIndependentOfItsSplitIntoResponses : Obligations.PayloadIsIndependentOfItsSplitIntoResponses := by
  intro s chunks last rest hinv hf hst hcnt hr hreq hlen hc hin
  have hcollects : Collects s := ⟨hinv.legal, hf, hst, by rw [hreq, hcnt, hr]⟩
  have hrun := delivers_payload hcollects hcnt hr hlen hc rest
  have hN : (unpackPayload (chunks.flatten ++ last)).length ≤ s.cfg.N :=
    Nat.le_of_eq (by rw [unpackPayload_length, hlen, four_mul_P hinv.legal])
  refine ⟨deficits s.cfg.P chunks, Memory.writeList s.pbuf 0 (chunks.flatten ++ last),
    Memory.ofValues 0 (unpackPayload (chunks.flatten ++ last)), ?_, Memory.wf_writeList hinv.pbufWf (by omega),
    Memory.wf_ofValues _ hN, Memory.read_writeList_full hinv.pbufWf hlen, Memory.read_ofValues _, deficits_length _ _,
    fun k hk => deficits_getElem? _ hk⟩
  rw [List.length_append] at hlen
  rw [← hin] at hrun
  refine hrun.trans ?_
  simp [State.present, State.collect, State.store, hcnt, hlen, Memory.writeList_append, -List.length_flatten]

end Sys2Proof.Machine

/-! ## Proofs: the synchronizer (41_synchronizer.md) -/

namespace Sys2Proof.Machine

open Laws

/-! ### One event while scanning -/

section
variable {s : State}

/-- A block that scans takes events. -/
theorem State.live_of_syncing (hf : s.fault = .none) (hst : s.st = .syncing) : s.ignoresEvents = false :=
  State.ignoresEvents_eq_false.mpr ⟨hf, by simp [hst]⟩

/-- A scan with no request outstanding asks for one byte (40_source_port.md R100). -/
theorem settle_of_syncing (hf : s.fault = .none) (hst : s.st = .syncing) (hr : s.reqN = 0) :
    settle s = .next { s with reqN := 1, rspCnt := 0, outs := s.outs ++ [.rdReq 1] } := by
  have hsize : s.requestSize = 1 := by simp [State.requestSize, hst]
  rw [settle_of_issueEnabled (State.issueEnabled_iff.mpr ⟨hf, .inl hst, hr⟩), hsize]
  rfl

end

/-- Settles O11: the byte is not the sentinel, so the row is R102's checks and the count. -/
theorem syncDiscardDropsTheByte : Obligations.SyncDiscardDropsTheByte := by
  intro s d hf hst hd
  have hlive : s.ignoresEvents = false := State.live_of_syncing hf hst
  exact ⟨(State.selects_data_syncing hlive hst).trans (if_neg hd), exec_syncDiscard hlive hst hd⟩

/-- Settles O12: after R102's checks and the count the row writes `cnt` and `st` alone. -/
theorem syncHitStartsAFrame : Obligations.SyncHitStartsAFrame := by
  intro s hf hst
  have hlive : s.ignoresEvents = false := State.live_of_syncing hf hst
  exact ⟨(State.selects_data_syncing hlive hst).trans (if_pos rfl), exec_syncHit hlive hst⟩

/-- Settles O13: R103 decides between the fault and the cleared request, for which ISSUE is then enabled. -/
theorem syncEndAsksAgain : Obligations.SyncEndAsksAgain := by
  refine ⟨fun s hf hst hr => ?_, fun s hf hst hr => ?_⟩
  · rw [exec_syncEnd (State.live_of_syncing hf hst) hst, State.afterEnd, if_pos hr]
    rfl
  · have hlive : s.ignoresEvents = false := State.live_of_syncing hf hst
    have hexec : exec .syncEnd s = .next { s with reqN := 0, rspCnt := 0 } := by
      rw [exec_syncEnd hlive hst, State.afterEnd, if_neg hr]
    refine ⟨State.selects_end_syncing hlive hst, hexec, ?_⟩
    rw [hexec, Answer.andThen_next]
    exact settle_of_syncing hf hst rfl

/-! ### A scan over whole responses -/

/-- A live block that scans and has just asked for one byte. -/
structure Scans (s : State) : Prop where
  legal : s.cfg.legal = true
  noFault : s.fault = .none
  syncing : s.st = .syncing
  asked : s.reqN = 1
  noBeats : s.rspCnt = 0

/-- The state after `n` responses without a sentinel: each is followed by a new request for one byte (R122). -/
def State.rescan (s : State) (n : Nat) : State := { s with outs := s.outs ++ List.replicate n (.rdReq 1) }

section
variable {s : State} {b : Byte} {c : List Byte} {chunks : List (List Byte)}

theorem State.rescan_zero (s : State) : s.rescan 0 = s := by simp [State.rescan]

theorem State.rescan_succ (s : State) (n : Nat) : s.rescan (n + 1) = (s.rescan 1).rescan n := by
  simp [State.rescan, List.replicate_succ]

theorem Scans.withInputs (h : Scans s) (ins : List Input) : Scans { s with inputs := ins } := { h with }

theorem Scans.rescan (h : Scans s) (n : Nat) : Scans (s.rescan n) := { h with }

theorem Scans.reqN_ne_zero (h : Scans s) : s.reqN ≠ 0 := by simp [h.asked]

/-- The one byte asked for is within the request (40_source_port.md R102). -/
theorem Scans.rspCnt_ne_reqN (h : Scans s) : s.rspCnt ≠ s.reqN := by simp [h.asked, h.noBeats]

/-- A byte other than the sentinel is counted and dropped (R120). -/
theorem takeEvent_garbage_of_scans (h : Scans s) (hb : b ≠ s.cfg.S) :
    takeEvent s (dataWord b) = .next { s with rspCnt := 1 } := by
  obtain ⟨hsel, hexec⟩ := syncDiscardDropsTheByte s b h.noFault h.syncing hb
  rw [← hsel, if_neg h.reqN_ne_zero, if_neg h.rspCnt_ne_reqN, h.noBeats] at hexec
  exact takeEvent_eq_next.mpr ⟨_, hexec, settle_of_requested (by simp [h.syncing]) h.reqN_ne_zero⟩

/-- The sentinel starts a frame within the same response (R121). -/
theorem takeEvent_sentinel_of_scans (h : Scans s) :
    takeEvent s (dataWord s.cfg.S) = .next { s with rspCnt := 1, cnt := 0, st := .accumulating } := by
  obtain ⟨hsel, hexec⟩ := syncHitStartsAFrame s h.noFault h.syncing
  rw [← hsel, if_neg h.reqN_ne_zero, if_neg h.rspCnt_ne_reqN, h.noBeats] at hexec
  exact takeEvent_eq_next.mpr ⟨_, hexec, settle_of_requested (by simp) h.reqN_ne_zero⟩

/-- The end of a response, whether its byte came or not, asks for one byte again (R122). -/
theorem takeEvent_end_of_scans (h : Scans s) (n : Nat) :
    takeEvent { s with rspCnt := n } 0x100#12 = .next (s.rescan 1) := by
  obtain ⟨-, hasks⟩ := syncEndAsksAgain
  obtain ⟨hsel, -, hend⟩ := hasks { s with rspCnt := n } h.noFault h.syncing h.reqN_ne_zero
  rw [takeEvent, hsel, hend]
  simp [State.rescan, h.asked, h.noBeats]

/-- A response of at most one byte, which is not the sentinel, leaves only a new request. -/
theorem delivers_garbageResponse (h : Scans s) (hlen : c.length ≤ 1) (hc : s.cfg.S ∉ c) :
    Delivers s (responseInputs c) (s.rescan 1) := by
  match c with
  | [] =>
    exact .cons h.legal (fun rest => takeEvent_end_of_scans (h.withInputs rest) s.rspCnt) (.nil _)
  | [b] =>
    have hb : b ≠ s.cfg.S := fun e => hc (by simp [e])
    exact .cons (t := { s with rspCnt := 1 }) h.legal
      (fun rest => takeEvent_garbage_of_scans (h.withInputs rest) hb)
      (.cons h.legal (fun rest => takeEvent_end_of_scans (h.withInputs rest) 1) (.nil _))
  | _ :: _ :: _ => simp at hlen

/-- Any number of such responses leave one request each (R123). -/
theorem delivers_garbage (h : Scans s) (hc : ∀ c ∈ chunks, c.length ≤ 1 ∧ s.cfg.S ∉ c) :
    Delivers s (responsesInputs chunks) (s.rescan chunks.length) := by
  induction chunks generalizing s with
  | nil =>
    rw [List.length_nil, State.rescan_zero]
    exact .nil s
  | cons c cs ih =>
    obtain ⟨⟨hlen, hS⟩, hcs⟩ := List.forall_mem_cons.mp hc
    rw [List.length_cons, State.rescan_succ]
    exact (delivers_garbageResponse h hlen hS).append (ih (h.rescan 1) hcs)

end

/-- Settles O59, by induction over the responses: each leaves one more request and nothing else, and the sentinel then
starts the frame. -/
theorem scanSkipsExactlyTheGarbagePrefix : Obligations.ScanSkipsExactlyTheGarbagePrefix := by
  intro s chunks rest hl hf hst hreq hr hc hin
  have hscans : Scans s := ⟨hl, hf, hst, hreq, hr⟩
  have hsentinel : Delivers (s.rescan chunks.length) [.event (dataWord s.cfg.S)]
      { s.rescan chunks.length with rspCnt := 1, cnt := 0, st := .accumulating } :=
    .cons hl (fun rest => takeEvent_sentinel_of_scans ((hscans.rescan _).withInputs rest)) (.nil _)
  have hrun := (delivers_garbage hscans hc).append hsentinel rest
  rw [List.length_append, List.append_assoc, List.singleton_append, ← hin] at hrun
  exact hrun

/-! ### A byte of the payload -/

/-- Two states that differ at most in the entry `j` of `pbuf`. -/
def AgreeButAt (j : Nat) (t t' : State) : Prop :=
  t' = { t with pbuf := t'.pbuf } ∧ ∀ i, i ≠ j → Memory.read t'.pbuf i = Memory.read t.pbuf i

section
variable {s t t' : State} {j : Nat}

theorem AgreeButAt.refl (j : Nat) (t : State) : AgreeButAt j t t := ⟨rfl, fun _ _ => rfl⟩

/-- The checks of a beat do not look at its byte. -/
theorem AgreeButAt.afterBeat (h : AgreeButAt j t t') : AgreeButAt j (s.afterBeat t) (s.afterBeat t') := by
  unfold State.afterBeat
  split
  · exact .refl j _
  · split
    · exact .refl j _
    · exact h

/-- Two bytes written to one entry. -/
theorem AgreeButAt.write (t : State) (j : Nat) (d d' : Byte) :
    AgreeButAt j { t with pbuf := Memory.write t.pbuf j d } { t with pbuf := Memory.write t.pbuf j d' } :=
  ⟨rfl, fun _ hi => (Memory.read_write_other t.pbuf d' hi).trans (Memory.read_write_other t.pbuf d hi).symm⟩

/-- Two bytes taken while accumulating lead to states that differ at most in the entry stored (42_accumulator.md
R140, R145). -/
theorem exec_accStore_agree (h : s.ignoresEvents = false) (hst : s.st = .accumulating) (d d' : Byte) :
    ∃ t t', exec (.accStore d) s = .next t ∧ exec (.accStore d') s = .next t' ∧ AgreeButAt s.cnt t t' := by
  refine ⟨_, _, exec_accStore h hst, exec_accStore h hst, .afterBeat ?_⟩
  split
  · exact .write { s with rspCnt := s.rspCnt + 1, cnt := s.cnt + 1 } s.cnt d d'
  · exact .refl _ _

end

/-- Settles O43: an ignored byte changes nothing; a byte that is taken reaches only the entry stored. -/
theorem accumulatorIsBlindToContent : Obligations.AccumulatorIsBlindToContent := by
  intro s t d d' hst ht
  cases hi : s.ignoresEvents with
  | true =>
    have hexec (b : Byte) : exec (.accStore b) s = .next s := unlessIgnored_of_ignores hi _
    cases (hexec d).symm.trans ht
    have hsel := decodeEvent_ignored (S := s.cfg.S) (eventWord 0#4 d)
      ((State.ignoresEvents_iff.mp hi).imp_left State.halted_iff.mpr)
    rw [eventKind_eventWord, eventData_eventWord] at hsel
    exact ⟨s, hexec d', rfl, fun _ _ => rfl, hsel⟩
  | false =>
    obtain ⟨u, t', hu, ht', heq, hread⟩ := exec_accStore_agree hi hst d d'
    cases hu.symm.trans ht
    exact ⟨t', ht', heq, hread, State.selects_data_accumulating hi hst⟩

end Sys2Proof.Machine

/-! ## Proofs: the accumulator (42_accumulator.md) -/

namespace Sys2Proof.Machine

open Laws

/-! ### Where a FRAME comes from -/

/-- From `s` to `t` the trace only grows, and by no FRAME. -/
def EmitsNoFrame (s t : State) : Prop := ∃ os, t.outs = s.outs ++ os ∧ ∀ r, .frame r ∉ os

section
variable {i : Instr} {s t u : State} {e : EventWord}

theorem EmitsNoFrame.of_outs_eq (h : t.outs = s.outs) : EmitsNoFrame s t := ⟨[], by simp [h]⟩

theorem EmitsNoFrame.of_append {o : Output} (h : t.outs = s.outs ++ [o]) (ho : ∀ r, o ≠ .frame r) :
    EmitsNoFrame s t :=
  ⟨[o], h, fun r hr => ho r (List.mem_singleton.mp hr).symm⟩

theorem EmitsNoFrame.trans (h : EmitsNoFrame s t) (h' : EmitsNoFrame t u) : EmitsNoFrame s u := by
  obtain ⟨os, ht, hos⟩ := h
  obtain ⟨os', hu, hos'⟩ := h'
  exact ⟨os ++ os', by rw [hu, ht, List.append_assoc], fun r hr => (List.mem_append.mp hr).elim (hos r) (hos' r)⟩

theorem EmitsNoFrame.frame_not_mem {emitted : List Output} {r : List Sample} (h : EmitsNoFrame s t)
    (ht : t.outs = s.outs ++ emitted) : .frame r ∉ emitted := by
  obtain ⟨os, ho, hos⟩ := h
  rw [List.append_cancel_left (ht.symm.trans ho)]
  exact hos r

/-- DECODE of a payload that is written is the one outcome that emits a FRAME (43_unpacker.md R162). -/
theorem Effect.emitsNoFrame_or_decoded (h : Effect i s t) :
    EmitsNoFrame s t ∨ (i = .decode ∧ s.decodeEnabled = true ∧
      ∃ bs, Memory.readRange s.pbuf 0 s.cfg.P = some bs) := by
  cases h with
  | decoded hd hr => exact .inr ⟨rfl, hd, _, hr⟩
  | ignored | counted | discarded | hit | stored | ended | completed | scans | latched | computed =>
    exact .inl (.of_outs_eq rfl)
  | _ => exact .inl (.of_append rfl nofun)

/-- DECODING is entered by ACC_END alone, when the payload is complete (42_accumulator.md R141). -/
theorem Effect.completed_of_decoding (h : Effect i s u) (hs : s.st ≠ .decoding) (hu : u.st = .decoding) :
    i = .accEnd ∧ s.st = .accumulating ∧ s.cnt = s.cfg.P ∧ u = { s with reqN := 0, rspCnt := 0, st := .decoding } := by
  cases h with
  | completed _ hst _ hc => exact ⟨rfl, hst, hc, rfl⟩
  | hit | closed | scans | stops | stopsNow | unavailable | decoded => cases hu
  | _ => exact absurd hu hs

theorem ne_decode_of_selects (s : State) (e : EventWord) : s.selects e ≠ .decode := by
  intro h
  have hcell := selectedIn_decodeEvent s.cfg.S s.st s.halted e
  rw [← State.selects, h] at hcell
  cases hcell

/-- ACC_END is selected by the word RD_END alone (30_encoding.md R77). -/
theorem eq_end_of_selects_accEnd (h : s.selects e = .accEnd) : e = 0x100#12 := by
  obtain ⟨-, hword⟩ := isWordOf_decodeEvent s.cfg.S s.st s.halted e
  rw [← State.selects, h] at hword
  exact (Option.some.inj hword).symm

/-- An event emits no FRAME, or its operation leads to DECODING and settle unpacks a payload that is written. -/
theorem takeEvent_emitsNoFrame_or_decodes (h : takeEvent s e = .next t) :
    EmitsNoFrame s t ∨ ∃ u bs, exec (s.selects e) s = .next u ∧ settle u = .next t ∧ u.decodeEnabled = true ∧
      Memory.readRange u.pbuf 0 u.cfg.P = some bs := by
  obtain ⟨u, hu, ht⟩ := takeEvent_eq_next.mp h
  have hexec : EmitsNoFrame s u :=
    (exec_effect hu).emitsNoFrame_or_decoded.resolve_right fun hd => ne_decode_of_selects s e hd.1
  rcases settle_effect ht with he | he | rfl
  · rcases he.emitsNoFrame_or_decoded with hsettle | ⟨-, hd, bs, hr⟩
    · exact .inl (hexec.trans hsettle)
    · exact .inr ⟨u, bs, hu, ht, hd, hr⟩
  · exact .inl (hexec.trans (he.emitsNoFrame_or_decoded.resolve_right fun hd => nomatch hd.1))
  · exact .inl hexec

/-- An event of a block of the invariant emits no FRAME, or it is the RD_END of a complete payload, which is then
presented (42_accumulator.md R143). -/
theorem takeEvent_emitsNoFrame_or_presents (hinv : Inv s) (h : takeEvent s e = .next t) :
    EmitsNoFrame s t ∨ (e = 0x100#12 ∧ s.st = .accumulating ∧ s.cnt = s.cfg.P ∧
      ∃ bs, Memory.readRange s.pbuf 0 s.cfg.P = some bs ∧ t = s.present bs) := by
  by_cases hf : s.fault = .none
  · refine (takeEvent_emitsNoFrame_or_decodes h).imp_right ?_
    rintro ⟨u, bs, hu, ht, hd, hr⟩
    obtain ⟨hsel, hst, hc, rfl⟩ := (exec_effect hu).completed_of_decoding (hinv.live hf).notDecoding
      (State.decodeEnabled_iff.mp hd).2
    have hpresent := settle_of_decodeEnabled hd hr
    cases ht.symm.trans hpresent
    exact ⟨eq_end_of_selects_accEnd hsel, hst, hc, bs, hr, rfl⟩
  · rw [takeEvent_of_ignores (State.ignoresEvents_iff.mpr (.inl hf))] at h
    cases h
    exact .inl (.of_outs_eq rfl)

end

/-- Settles O56: waiting, a reset and every event but one emit no FRAME; the one is the RD_END of a complete payload,
whose samples the FRAME carries. -/
theorem frameComesOnlyFromACompletePayload : Obligations.FrameComesOnlyFromACompletePayload := by
  intro s t emitted r hinv hstep houts hframe
  obtain ⟨hl, ⟨-, rfl⟩ | ⟨rest, -, rfl⟩ | ⟨e, rest, hin, he⟩⟩ := step_eq_next.mp hstep
  · exact absurd hframe (EmitsNoFrame.frame_not_mem (.of_outs_eq rfl) houts)
  · exact absurd hframe (EmitsNoFrame.frame_not_mem (.of_outs_eq rfl) houts)
  · rcases takeEvent_emitsNoFrame_or_presents (hinv.withOwnFields rest s.outs s.fnOut) he with
      hnone | ⟨rfl, hst, hc, bs, hr, rfl⟩
    · exact absurd hframe (hnone.frame_not_mem houts)
    · obtain rfl : emitted = [.frame (unpackPayload bs)] := (List.append_cancel_left houts).symm
      cases List.mem_singleton.mp hframe
      refine ⟨⟨rest, hin⟩, hst, hc, rfl, rfl, unpackPayload_length_eq_N hl hr, fun k hk => ?_⟩
      obtain ⟨b, hb, hread⟩ := read_unpacked hl hr hk
      exact ⟨b, hb, (Memory.read_ofValues _ k).symm.trans hread⟩

/-! ### One event while accumulating -/

section
variable {s : State}

/-- A block that accumulates takes events. -/
theorem State.live_of_accumulating (hf : s.fault = .none) (hst : s.st = .accumulating) : s.ignoresEvents = false :=
  State.ignoresEvents_eq_false.mpr ⟨hf, by simp [hst]⟩

/-- With no request outstanding the block asks for what the payload lacks (40_source_port.md R100). -/
theorem settle_of_accumulating (hf : s.fault = .none) (hst : s.st = .accumulating) (hr : s.reqN = 0) :
    settle s = .next { s with reqN := s.cfg.P - s.cnt, rspCnt := 0, outs := s.outs ++ [.rdReq (s.cfg.P - s.cnt)] } := by
  have hsize : s.requestSize = s.cfg.P - s.cnt := by simp [State.requestSize, hst]
  rw [settle_of_issueEnabled (State.issueEnabled_iff.mpr ⟨hf, .inr hst, hr⟩), hsize]
  rfl

/-- Where DECODE is enabled settle runs it (44_control.md R191). -/
theorem settle_eq_exec_decode (h : s.decodeEnabled = true) : settle s = exec .decode s := by
  simp [settle, State.enabledOperation, h]

end

/-- Settles O14: R102's checks in their order, then the entry at `cnt` is written where there is one. -/
theorem accStoreStoresTheByteAtCount : Obligations.AccStoreStoresTheByteAtCount := by
  intro s d hf hst
  have hlive : s.ignoresEvents = false := State.live_of_accumulating hf hst
  refine ⟨State.selects_data_accumulating hlive hst, ?_⟩
  rw [exec_accStore hlive hst, State.afterBeat]
  refine ⟨fun hr => ?_, fun hr hb => ?_, fun hr hb hc => ?_, fun hr hb hc => ?_⟩
  · rw [if_pos hr]
    rfl
  · rw [if_neg hr, if_pos hb]
    rfl
  · rw [if_neg hr, if_neg hb, if_neg (Nat.not_lt.mpr hc)]
    rfl
  · rw [if_neg hr, if_neg hb, if_pos hc]
    exact ⟨Memory.write s.pbuf s.cnt d, rfl, Memory.read_write_same _ _ _, fun _ => Memory.read_write_other _ _⟩

/-- Settles O15: the row is R103, then the comparison of `cnt` with `P`, which decides what settle is enabled to run. -/
theorem accEndDecodesACompletePayload : Obligations.AccEndDecodesACompletePayload := by
  refine ⟨fun s hf hst => ?_, fun s hf hst hr hc => ?_, fun s hf hst hr hc => ?_⟩
  · have hlive : s.ignoresEvents = false := State.live_of_accumulating hf hst
    exact ⟨State.selects_end_accumulating hlive hst, exec_accEnd hlive hst⟩
  · rw [exec_accEnd (State.live_of_accumulating hf hst) hst, State.afterEnd, if_neg hr, if_pos hc]
    exact settle_eq_exec_decode (State.decodeEnabled_iff.mpr ⟨hf, rfl⟩)
  · rw [exec_accEnd (State.live_of_accumulating hf hst) hst, State.afterEnd, if_neg hr, if_neg hc]
    exact settle_of_accumulating hf hst rfl

/-- Settles O16: the word selects ACC_END, which leaves an incomplete payload's next request to settle. -/
theorem shortReadOnlyAsksForTheRest : Obligations.ShortReadOnlyAsksForTheRest := by
  intro s rest hl hf hst hr hc hin
  obtain ⟨hrow, -, hshort⟩ := accEndDecodesACompletePayload
  obtain ⟨hsel, -⟩ := hrow { s with inputs := rest } hf hst
  rw [step_of_event hl hin, takeEvent, hsel]
  exact hshort { s with inputs := rest } hf hst hr (Nat.ne_of_lt hc)

end Sys2Proof.Machine

/-! ## Proofs: the unpacker (43_unpacker.md) -/

namespace Sys2Proof.Machine

/-! ### The pure functions as operations -/

/-- Settles O17: the sample is FIELD's, whose value as a natural is R160's. -/
theorem fieldSelectsTheBitPair : Obligations.FieldSelectsTheBitPair :=
  fun _ b k => ⟨fieldOf b k, rfl, fieldOf_toNat b k⟩

/-- Settles O18: the samples are the byte's fields, and packing them again gives the byte. -/
theorem unpackGivesTheFourFields : Obligations.UnpackGivesTheFourFields :=
  fun _ b => ⟨fieldOf b 0#2, fieldOf b 1#2, fieldOf b 2#2, fieldOf b 3#2, rfl, (packSamples_fieldOf b).symm⟩

/-- Settles O19: both rows give the luminance, which is exact in 8 bits. -/
theorem lumAndRgbAreEightyFiveTimesTheSample : Obligations.LumAndRgbAreEightyFiveTimesTheSample :=
  fun _ x => ⟨lumOf x, lumOf_toNat x, rfl, rfl⟩

/-! ### DECODE where it is enabled -/

section
variable {s : State}

/-- DECODE is the enabled operation exactly where R162 enables it: settle looks at it first. -/
theorem State.enabledOperation_eq_decode_iff : s.enabledOperation = some .decode ↔ s.decodeEnabled = true := by
  rcases s.enabledOperation_cases with ⟨hd, he⟩ | ⟨hd, -, he⟩ | ⟨hd, -, he⟩ <;> simp [hd, he]

/-- DECODE of a payload that is written (43_unpacker.md R162). -/
theorem exec_decode_of_written {bs : List Byte} (h : s.decodeEnabled = true)
    (hr : Memory.readRange s.pbuf 0 s.cfg.P = some bs) :
    exec .decode s = .next { s with raster := Memory.ofValues 0 (unpackPayload bs), st := .presenting,
                                    outs := s.outs ++ [.frame (unpackPayload bs)] } :=
  (settle_eq_exec_decode h).symm.trans (settle_of_decodeEnabled h hr)

/-- DECODE of a payload with an unwritten entry (60_exceptions.md R227; log entry 9). -/
theorem exec_decode_of_unwritten (h : s.decodeEnabled = true) (hr : Memory.readRange s.pbuf 0 s.cfg.P = none) :
    exec .decode s = .next (s.raiseFault .unwritten) := by
  rcases execDecode_cases h with ⟨-, he⟩ | ⟨bs, hbs, -⟩
  · exact he
  · cases hr.symm.trans hbs

end

/-- Settles O20: whether the payload is read whole decides what DECODE does, and a payload read whole gives every
sample of the raster, which FRAME carries. -/
theorem decodeUnpacksTheWholePayload : Obligations.DecodeUnpacksTheWholePayload := by
  refine ⟨fun s => State.enabledOperation_eq_decode_iff.trans State.decodeEnabled_iff,
    fun s hl hf hst hw => ?_, fun s hf hst hu => ?_⟩
  · obtain ⟨bs, hr⟩ := exists_readRange hw
    have hlen : (unpackPayload bs).length = s.cfg.N := unpackPayload_length_eq_N hl hr
    refine ⟨unpackPayload bs, Memory.ofValues 0 (unpackPayload bs),
      exec_decode_of_written (State.decodeEnabled_iff.mpr ⟨hf, hst⟩) hr, hlen,
      Memory.wf_ofValues _ hlen.le, fun i hi => ?_⟩
    obtain ⟨b, hb, hread⟩ := read_unpacked hl hr hi
    exact ⟨b, hb, hread, (Memory.read_ofValues _ i).symm.trans hread⟩
  · obtain ⟨j, hj, hr⟩ := hu
    exact exec_decode_of_unwritten (State.decodeEnabled_iff.mpr ⟨hf, hst⟩)
      (Memory.readRange_eq_none.mpr ⟨j, hj, (Nat.zero_add j).symm ▸ hr⟩)

/-! ### Packing -/

/-- A concatenation as a natural: the high part is shifted past the low part. -/
theorem toNat_append_eq_add {v w : Nat} (hi : BitVec v) (lo : BitVec w) :
    (hi ++ lo).toNat = hi.toNat * 2 ^ w + lo.toNat := by
  rw [BitVec.toNat_append, ← Nat.shiftLeft_add_eq_or_of_lt lo.isLt, Nat.shiftLeft_eq]

/-- `PACK(s0,s1,s2,s3) = 64*s0 + 16*s1 + 4*s2 + s3` (43_unpacker.md R168). -/
theorem packSamples_toNat (s0 s1 s2 s3 : Sample) :
    (packSamples s0 s1 s2 s3).toNat = s0.toNat * 64 + s1.toNat * 16 + s2.toNat * 4 + s3.toNat := by
  rw [packSamples, toNat_append_eq_add, toNat_append_eq_add, toNat_append_eq_add]
  omega

/-- Entry `j` of the payload is PACK of the `j`-th four samples of `x` (R168). -/
def PacksAt (m : Memory 8) (x : List Sample) (j : Nat) : Prop :=
  ∃ s0 s1 s2 s3 : Sample,
    x[4 * j]? = some s0 ∧ x[4 * j + 1]? = some s1 ∧ x[4 * j + 2]? = some s2 ∧ x[4 * j + 3]? = some s3 ∧
    Memory.read m j = some (packSamples s0 s1 s2 s3)

section
variable {m : Memory 8} {x : List Sample}

/-- The samples of a packed byte are its fields (R161, R168). -/
theorem PacksAt.getElem?_eq_fieldOf {j k : Nat} {b : Byte} (h : PacksAt m x j) (hb : Memory.read m j = some b)
    (hk : k < 4) : x[4 * j + k]? = some (fieldOf b (BitVec.ofNat 2 k)) := by
  obtain ⟨s0, s1, s2, s3, h0, h1, h2, h3, hpack⟩ := h
  cases hb.symm.trans hpack
  rw [← unpackByte_getElem? _ hk, unpackByte_packSamples]
  interval_cases k
  · exact h0
  · exact h1
  · exact h2
  · exact h3

/-- A payload that packs a grid of samples unpacks to that grid (R168). -/
theorem unpackPayload_eq_of_packsAt {cfg : Config} {bs : List Byte} (hl : cfg.legal = true) (hx : x.length = cfg.N)
    (hr : Memory.readRange m 0 cfg.P = some bs) (h : ∀ j, j < cfg.P → PacksAt m x j) : unpackPayload bs = x := by
  have hlen : (unpackPayload bs).length = cfg.N := unpackPayload_length_eq_N hl hr
  have hP : 4 * cfg.P = cfg.N := four_mul_P hl
  apply List.ext_getElem?
  intro i
  by_cases hi : i < cfg.N
  · obtain ⟨b, hb, hread⟩ := read_unpacked hl hr hi
    have hpacks : PacksAt m x (i / 4) := h _ (by omega)
    calc (unpackPayload bs)[i]?
        = some (fieldOf b (fieldIndex i)) := (Memory.read_ofValues _ i).symm.trans hread
      _ = x[4 * (i / 4) + i % 4]? := (hpacks.getElem?_eq_fieldOf hb (Nat.mod_lt i (by decide))).symm
      _ = x[i]? := by rw [Nat.div_add_mod]
  · rw [List.getElem?_eq_none (by omega), List.getElem?_eq_none (by omega)]

end

/-- Settles O21: the two round trips are laws of the byte, and DECODE of a payload that packs a grid unpacks it field
by field. -/
theorem packedFrameDecodesToItself : Obligations.PackedFrameDecodesToItself := by
  refine ⟨fun s0 s1 s2 s3 => ⟨packSamples_toNat s0 s1 s2 s3, unpackByte_packSamples s0 s1 s2 s3⟩,
    fun b => ⟨_, _, _, _, rfl, packSamples_fieldOf b⟩, fun s x hl hf hst hx hpacks => ?_⟩
  obtain ⟨bs, hr⟩ := exists_readRange (m := s.pbuf) (n := s.cfg.P) fun j hj => by
    obtain ⟨_, _, _, _, -, -, -, -, hread⟩ := hpacks j hj
    exact Option.isSome_of_eq_some hread
  have hdecode := exec_decode_of_written (State.decodeEnabled_iff.mpr ⟨hf, hst⟩) hr
  obtain rfl : unpackPayload bs = x := unpackPayload_eq_of_packsAt hl hx hr hpacks
  exact ⟨_, hdecode, fun i _ => Memory.read_ofValues _ i⟩

/-! ### Pixels -/

section
variable {cfg : Config} {r c : Nat}

/-- The index of a pixel lies in the raster (43_unpacker.md R163). -/
theorem pixelIndex_lt_N (hr : r < cfg.H) (hc : c < cfg.W) : pixelIndex cfg r c < cfg.N := by
  rw [pixelIndex, Config.N, Nat.mul_comm r, Nat.mul_comm cfg.W cfg.H]
  exact Nat.mul_add_lt_mul_of_lt_of_lt hr hc

/-- A pixel's index names its row and its column (R163). -/
theorem pixelRow_pixelColumn_pixelIndex (hc : c < cfg.W) :
    pixelRow cfg (pixelIndex cfg r c) = r ∧ pixelColumn cfg (pixelIndex cfg r c) = c :=
  (Nat.div_mod_unique (Nat.zero_lt_of_lt hc)).mpr ⟨by rw [pixelIndex, Nat.mul_comm, Nat.add_comm], hc⟩

/-- A pixel of the frame port is the sample at its index (R163, R167). -/
theorem State.framePixel_eq_frameSample {s : State} (hr : r < s.cfg.H) (hc : c < s.cfg.W) :
    s.framePixel r c = s.frameSample (pixelIndex s.cfg r c) := by
  simp [State.framePixel, hr, hc]

end

/-- Settles O22: the pixel is the raster's entry at its index, which R34 item 5 ties to the payload. -/
theorem pixelComesFromItsPayloadField : Obligations.PixelComesFromItsPayloadField := by
  refine ⟨fun s r c hinv hf hst hr hc => ?_,
    fun cfg r c hr hc => ⟨pixelIndex_lt_N hr hc, pixelRow_pixelColumn_pixelIndex hc⟩⟩
  have hi : pixelIndex s.cfg r c < s.cfg.N := pixelIndex_lt_N hr hc
  obtain ⟨-, hraster⟩ := (hinv.live hf).rasterDecoded hst
  obtain ⟨b, hb, hread⟩ := hraster _ hi
  refine ⟨b, hb, ?_⟩
  rw [State.framePixel_eq_frameSample hr hc, State.frameSample_of_presenting hst hi]
  exact hread

/-! ### The frame port while a frame is presented -/

section
variable {s t : State}

/-- The frame port's samples depend on the state, the configuration and the raster alone (10_state.md R30). -/
theorem State.frameSample_congr (hst : t.st = s.st) (hcfg : t.cfg = s.cfg) (hraster : t.raster = s.raster) (i : Nat) :
    t.frameSample i = s.frameSample i := by
  simp [State.frameSample, State.frameValid, hst, hcfg, hraster]

/-- The luminance and the grey triple follow the sample (R30). -/
theorem State.frameViews_congr {i : Nat} (h : t.frameSample i = s.frameSample i) :
    t.frameLum i = s.frameLum i ∧ t.frameRgb i = s.frameRgb i := by
  simp [State.frameLum, State.frameRgb, h]

theorem settle_cfg_eq (h : settle s = .next t) : t.cfg = s.cfg := by
  rcases settle_effect h with he | he | rfl
  · exact he.cfg_eq
  · exact he.cfg_eq
  · rfl

/-- Outside DECODING settle keeps the raster: DECODE is not enabled there (43_unpacker.md R162). -/
theorem settle_raster_eq (hst : s.st ≠ .decoding) (h : settle s = .next t) : t.raster = s.raster := by
  rcases settle_cases s with ⟨hd, -⟩ | ⟨-, -, e⟩ | ⟨-, -, e⟩
  · exact absurd (State.decodeEnabled_iff.mp hd).2 hst
  · exact (execIssue_effect (e.symm.trans h)).raster_eq (by decide)
  · cases e.symm.trans h
    rfl

/-- An event taken in PRESENTING leads to no DECODE, so it keeps what the frame port shows (70_reset_and_hazards.md
R266). -/
theorem takeEvent_keeps_frame {e : EventWord} (hst : s.st = .presenting) (h : takeEvent s e = .next t) :
    t.cfg = s.cfg ∧ t.raster = s.raster := by
  obtain ⟨u, hu, ht⟩ := takeEvent_eq_next.mp h
  have heff : Effect (s.selects e) s u := exec_effect hu
  have hdec : u.st ≠ .decoding := by
    intro hud
    obtain ⟨-, hacc, -⟩ := heff.completed_of_decoding (by simp [hst]) hud
    cases hst.symm.trans hacc
  exact ⟨(settle_cfg_eq ht).trans heff.cfg_eq,
    (settle_raster_eq hdec ht).trans (heff.raster_eq (ne_decode_of_selects s e))⟩

end

/-- Settles O50: a step that stays in PRESENTING waits or takes an event, and either keeps the configuration and the
raster; a reset leaves PRESENTING. -/
theorem framePortIsStableWhilePresenting : Obligations.FramePortIsStableWhilePresenting := by
  intro s t hs ht hstep i
  have hkeep : t.cfg = s.cfg ∧ t.raster = s.raster := by
    obtain ⟨-, ⟨-, rfl⟩ | ⟨rest, -, rfl⟩ | ⟨e, rest, -, he⟩⟩ := step_eq_next.mp hstep
    · exact ⟨rfl, rfl⟩
    · cases ht
    · exact takeEvent_keeps_frame (s := { s with inputs := rest }) hs he
  have hsample := State.frameSample_congr (ht.trans hs.symm) hkeep.1 hkeep.2 i
  exact ⟨hsample, State.frameViews_congr hsample⟩

end Sys2Proof.Machine

/-! ## Proofs: lifecycle control (44_control.md) -/

namespace Sys2Proof.Machine

open Laws

/-! ### The step and its settle -/

/-- Settles O1: under a legal configuration the step is `takeEvent`, which is exactly R190's two parts. -/
theorem stepRunsSelectedOperation : Obligations.StepRunsSelectedOperation :=
  fun _ _ _ hl hin => step_of_event hl hin

section
variable {s t : State}

/-- No internal operation is enabled exactly where neither DECODE nor ISSUE is (44_control.md R191). -/
theorem State.enabledOperation_eq_none_iff :
    s.enabledOperation = none ↔ s.decodeEnabled = false ∧ s.issueEnabled = false := by
  rcases s.enabledOperation_cases with ⟨hd, he⟩ | ⟨hd, hi, he⟩ | ⟨hd, hi, he⟩
  · simp [he, hd]
  · simp [he, hi]
  · simp [he, hd, hi]

/-- No internal operation is enabled in a block that ignores events (44_control.md R191). -/
theorem State.enabledOperation_of_ignores (h : s.ignoresEvents = true) : s.enabledOperation = none := by
  have notLive : s.ignoresEvents ≠ false := by simp [h]
  exact State.enabledOperation_eq_none_iff.mpr
    ⟨eq_false_of_ne_true fun hd => notLive (State.live_of_decodeEnabled hd),
      eq_false_of_ne_true fun hi => notLive (State.live_of_issueEnabled hi)⟩

/-- No internal operation is enabled while a frame is presented. -/
theorem State.enabledOperation_of_presenting (hst : s.st = .presenting) : s.enabledOperation = none :=
  State.enabledOperation_eq_none_iff.mpr
    ⟨by simp [State.decodeEnabled, hst], by simp [State.issueEnabled, hst]⟩

/-- No internal operation is enabled while the block waits on a request. -/
theorem State.enabledOperation_of_requested (hd : s.st ≠ .decoding) (hr : s.reqN ≠ 0) : s.enabledOperation = none :=
  State.enabledOperation_eq_none_iff.mpr
    ⟨by simp [State.decodeEnabled, hd], by simp [State.issueEnabled, hr]⟩

/-- ISSUE asks for at least one byte, unless the payload lacks none (40_source_port.md R100). -/
theorem State.requestSize_ne_zero (h : s.st ≠ .syncing → s.cnt < s.cfg.P) : s.requestSize ≠ 0 := by
  unfold State.requestSize
  split
  · exact Nat.one_ne_zero
  · exact Nat.sub_ne_zero_of_lt (h ‹_›)

end

/-- Settles O46: DECODE leaves PRESENTING or a halted block, ISSUE leaves a request of at least one byte, and otherwise
nothing was enabled. -/
theorem settleLeavesNoInternalOperationEnabled : Obligations.SettleLeavesNoInternalOperationEnabled := by
  intro s t hroom ht
  rcases settle_cases s with ⟨hd, e⟩ | ⟨-, hi, e⟩ | ⟨hd, hi, e⟩ <;> rw [e] at ht
  · rcases execDecode_cases hd with ⟨-, e⟩ | ⟨bs, -, e⟩ <;> cases e.symm.trans ht
    · exact State.enabledOperation_of_ignores (State.ignoresEvents_iff.mpr (.inl nofun))
    · exact State.enabledOperation_of_presenting rfl
  · obtain ⟨-, hst, hr⟩ := State.issueEnabled_iff.mp hi
    cases (execIssue_of_enabled hi).symm.trans ht
    have hsize : s.requestSize ≠ 0 := State.requestSize_ne_zero fun hs => hroom (hst.resolve_left hs) hr
    refine State.enabledOperation_of_requested ?_ hsize
    rcases hst with hst | hst <;> simp [hst]
  · cases ht
    exact State.enabledOperation_eq_none_iff.mpr ⟨hd, hi⟩

/-! ### The loop top (R195), and the rows that call it -/

section
variable {s : State}

/-- A block in IDLE takes events. -/
theorem State.live_of_idle (hf : s.fault = .none) (hst : s.st = .idle) : s.ignoresEvents = false :=
  State.ignoresEvents_eq_false.mpr ⟨hf, by simp [hst]⟩

/-- A block that presents a frame takes events. -/
theorem State.live_of_presenting (hf : s.fault = .none) (hst : s.st = .presenting) : s.ignoresEvents = false :=
  State.ignoresEvents_eq_false.mpr ⟨hf, by simp [hst]⟩

theorem State.loopTop_of_not_pending (h : s.stopPend = false) : s.loopTop = { s with st := .syncing } := by
  simp [State.loopTop, h]

theorem State.loopTop_of_pending (h : s.stopPend = true) : s.loopTop = s.enterShutdown .stopped := if_pos h

/-- After a loop top with no stop pending settle asks for one byte (44_control.md R195). -/
theorem settle_loopTop (hf : s.fault = .none) (hp : s.stopPend = false) (hr : s.reqN = 0) :
    settle s.loopTop = .next { s with st := .syncing, reqN := 1, rspCnt := 0, outs := s.outs ++ [.rdReq 1] } := by
  rw [State.loopTop_of_not_pending hp]
  exact settle_of_syncing (s := { s with st := .syncing }) hf rfl hr

/-- START (44_control.md R192, R197). -/
theorem exec_start (h : s.ignoresEvents = false) :
    exec .start s = .next (if s.st = .idle then s.loopTop else s.raiseFault .badStart) :=
  (unlessIgnored_of_live h _).trans (apply_ite _ _ _ _).symm

/-- SINK_ACK (R196, R197). -/
theorem exec_sinkAck (h : s.ignoresEvents = false) :
    exec .sinkAck s = .next (if s.st = .presenting then s.loopTop else s.raiseFault .badAck) :=
  (unlessIgnored_of_live h _).trans (apply_ite _ _ _ _).symm

/-- OPEN_FAIL (R193, R197). -/
theorem exec_openFail (h : s.ignoresEvents = false) :
    exec .openFail s =
      .next (if s.st = .idle then s.enterShutdown .sourceUnavailable else s.raiseFault .badOpenFail) :=
  (unlessIgnored_of_live h _).trans (apply_ite _ _ _ _).symm

/-- A restricted row, in a block that takes events and where the row applies. -/
theorem unlessIgnored_onlyIf {b : Bool} (h : s.ignoresEvents = false) (hb : b = true) (r : Answer) :
    unlessIgnored s (onlyIf b r) = r :=
  (unlessIgnored_of_live h _).trans (onlyIf_of_true hb r)

/-! ### The control words in a block that takes events -/

theorem State.selects_start (h : s.ignoresEvents = false) :
    s.selects 0x300#12 = if s.st = .idle then .start else .startMisplaced := by
  obtain ⟨-, -, hstart, -⟩ := decodeEvent_fixed (S := s.cfg.S) (State.st_ne_shutdown_of_live h)
  rw [State.selects_of_live h, hstart]

theorem State.selects_stop (h : s.ignoresEvents = false) : s.selects 0x400#12 = .stop := by
  obtain ⟨-, -, -, hstop, -⟩ := decodeEvent_fixed (S := s.cfg.S) (State.st_ne_shutdown_of_live h)
  rw [State.selects_of_live h, hstop]

theorem State.selects_openFail (h : s.ignoresEvents = false) :
    s.selects 0x500#12 = if s.st = .idle then .openFail else .openFailMisplaced := by
  obtain ⟨-, -, -, -, hfail, -⟩ := decodeEvent_fixed (S := s.cfg.S) (State.st_ne_shutdown_of_live h)
  rw [State.selects_of_live h, hfail]

theorem State.selects_ack (h : s.ignoresEvents = false) :
    s.selects 0x600#12 = if s.st = .presenting then .sinkAck else .sinkAckMisplaced := by
  obtain ⟨-, -, -, -, -, hack⟩ := decodeEvent_fixed (S := s.cfg.S) (State.st_ne_shutdown_of_live h)
  rw [State.selects_of_live h, hack]

/-- A block that ignores events answers every word with its state (60_exceptions.md R226, R229). -/
theorem exec_selects_of_ignores (h : s.ignoresEvents = true) (e : EventWord) : exec (s.selects e) s = .next s := by
  have hsel : s.selects e = .shutdownIgnore (eventKind e) (eventData e) :=
    decodeEvent_ignored e ((State.ignoresEvents_iff.mp h).imp_left State.halted_iff.mpr)
  rw [hsel]
  exact unlessIgnored_of_ignores h _

end

/-- Settles O24: in IDLE the row is the loop top, which the latched stop decides. -/
theorem startIsTheFirstLoopTop : Obligations.StartIsTheFirstLoopTop := by
  refine ⟨fun s hf hst => ?_, fun s hf hst hp => ?_, fun s hf hst hp => ?_, fun s hf hs hst => ?_⟩
  · exact (State.selects_start (State.live_of_idle hf hst)).trans (if_pos hst)
  · rw [exec_start (State.live_of_idle hf hst), if_pos hst]
    exact ⟨congrArg _ (State.loopTop_of_not_pending hp), settle_loopTop hf hp⟩
  · rw [exec_start (State.live_of_idle hf hst), if_pos hst, State.loopTop_of_pending hp]
    rfl
  · rw [exec_start (State.ignoresEvents_eq_false.mpr ⟨hf, hs⟩), if_neg hst]
    rfl

/-- Settles O27: in PRESENTING the row is the loop top, which the latched stop decides. -/
theorem sinkAckIsTheNextLoopTop : Obligations.SinkAckIsTheNextLoopTop := by
  refine ⟨fun s hf hst => ?_, fun s hf hst hp => ?_, fun s hf hst hp => ?_, fun s hf hs hst => ?_⟩
  · exact (State.selects_ack (State.live_of_presenting hf hst)).trans (if_pos hst)
  · rw [exec_sinkAck (State.live_of_presenting hf hst), if_pos hst]
    exact ⟨congrArg _ (State.loopTop_of_not_pending hp), settle_loopTop hf hp⟩
  · rw [exec_sinkAck (State.live_of_presenting hf hst), if_pos hst, State.loopTop_of_pending hp]
    rfl
  · rw [exec_sinkAck (State.ignoresEvents_eq_false.mpr ⟨hf, hs⟩), if_neg hst]
    rfl

/-- Settles O28: where START and SINK_ACK call it the row applies, and it is the procedure of R195. -/
theorem loopTopPollsTheStop : Obligations.LoopTopPollsTheStop :=
  fun s hf hst => onlyIf_of_true (b := s.atLoopTop) (by simp [State.atLoopTop, State.halted_eq_false.mpr hf, hst]) _

/-- Settles O25: the row looks at `STOP_SAMPLING` alone. -/
theorem stopIsLatchedOrActedOnAtOnce : Obligations.StopIsLatchedOrActedOnAtOnce := by
  refine ⟨fun s hf hst => ?_, fun s hf hst hc => ?_, fun s hf hst hc => ?_⟩
  · exact State.selects_stop (State.ignoresEvents_eq_false.mpr ⟨hf, hst⟩)
  · refine (unlessIgnored_of_live (State.ignoresEvents_eq_false.mpr ⟨hf, hst⟩) _).trans ?_
    rw [hc]
  · refine (unlessIgnored_of_live (State.ignoresEvents_eq_false.mpr ⟨hf, hst⟩) _).trans ?_
    rw [hc]
    rfl

/-- Settles O26: the row does not look at `stop_pend`. -/
theorem openFailShutsDownBeforeAnyScan : Obligations.OpenFailShutsDownBeforeAnyScan := by
  refine ⟨fun s hf hst => ?_, fun s hf hst => ?_, fun s hf hs hst => ?_⟩
  · exact (State.selects_openFail (State.live_of_idle hf hst)).trans (if_pos hst)
  · rw [exec_openFail (State.live_of_idle hf hst), if_pos hst]
    rfl
  · rw [exec_openFail (State.ignoresEvents_eq_false.mpr ⟨hf, hs⟩), if_neg hst]
    rfl

/-- Settles O29: outside its state each word selects its misplaced row, which faults; SHUTDOWN ignores every word. -/
theorem misplacedControlEventsFault : Obligations.MisplacedControlEventsFault := by
  refine ⟨fun s hf hs hst => ?_, fun s hf hs hst => ?_, fun s hf hs hst => ?_, fun s hst => ?_⟩
  · have hlive : s.ignoresEvents = false := State.ignoresEvents_eq_false.mpr ⟨hf, hs⟩
    exact ⟨(State.selects_start hlive).trans (if_neg hst), unlessIgnored_onlyIf hlive (decide_eq_true hst) _⟩
  · have hlive : s.ignoresEvents = false := State.ignoresEvents_eq_false.mpr ⟨hf, hs⟩
    exact ⟨(State.selects_openFail hlive).trans (if_neg hst), unlessIgnored_onlyIf hlive (decide_eq_true hst) _⟩
  · have hlive : s.ignoresEvents = false := State.ignoresEvents_eq_false.mpr ⟨hf, hs⟩
    exact ⟨(State.selects_ack hlive).trans (if_neg hst), unlessIgnored_onlyIf hlive (decide_eq_true hst) _⟩
  · have hignored : s.ignoresEvents = true := State.ignoresEvents_iff.mpr (.inr hst)
    exact ⟨exec_selects_of_ignores hignored _, exec_selects_of_ignores hignored _,
      exec_selects_of_ignores hignored _⟩

/-- Settles O30: the reset state is in IDLE with no stop pending and no request outstanding, so START scans. -/
theorem startAfterResetRequestsOneByte : Obligations.StartAfterResetRequestsOneByte := by
  intro cfg rest hl
  obtain ⟨hselects, hscans, -⟩ := startIsTheFirstLoopTop
  rw [step_of_event hl rfl, takeEvent, hselects _ rfl rfl]
  exact (hscans { State.resetWith cfg with inputs := rest } rfl rfl rfl).2 rfl

/-! ### The order of the lifecycle (R198) -/

section
variable {i : Instr} {s t : State}

theorem lifecycleMove_self (a : Lifecycle) : lifecycleMove a a = true := by simp [lifecycleMove]

theorem lifecycleMove_shutdown (a : Lifecycle) : lifecycleMove a .shutdown = true := by simp [lifecycleMove]

/-- A fault leaves the lifecycle where it was (60_exceptions.md R228). -/
theorem Effect.st_eq_of_fault_ne (h : Effect i s t) (hne : t.fault ≠ s.fault) : t.st = s.st := by
  cases h with
  | noRequest | overlong | storeFull | badStart | badOpenFail | badAck | illegal | undecodable => rfl
  | _ => exact absurd rfl hne

/-- An operation that neither starts nor ends in DECODING moves along the lifecycle's order: only SYNC_HIT, the loop top
and an entry to SHUTDOWN move there. -/
theorem Effect.lifecycleMove (h : Effect i s t) (hs : s.st ≠ .decoding) (ht : t.st ≠ .decoding) :
    lifecycleMove s.st t.st = true := by
  cases h with
  | hit _ hst =>
    rw [hst]
    rfl
  | scans hi =>
    obtain ⟨-, hst | hst⟩ := reachesLoopTop_cases hi <;> rw [hst] <;> rfl
  | closed | stops | stopsNow | unavailable => exact lifecycleMove_shutdown _
  | completed => exact absurd rfl ht
  | decoded hd => exact absurd (State.decodeEnabled_iff.mp hd).2 hs
  | _ => exact lifecycleMove_self _

/-- Settle moves the lifecycle from DECODING to PRESENTING or not at all (44_control.md R191). -/
theorem settle_st_cases (h : settle s = .next t) : t.st = s.st ∨ (s.st = .decoding ∧ t.st = .presenting) := by
  rcases settle_cases s with ⟨hd, e⟩ | ⟨-, hi, e⟩ | ⟨-, -, e⟩ <;> rw [e] at h
  · rcases execDecode_cases hd with ⟨-, e⟩ | ⟨bs, -, e⟩ <;> cases e.symm.trans h
    · exact .inl rfl
    · exact .inr ⟨(State.decodeEnabled_iff.mp hd).2, rfl⟩
  · cases (execIssue_of_enabled hi).symm.trans h
    exact .inl rfl
  · cases h
    exact .inl rfl

/-- No event of a live block of the invariant leaves it in DECODING: a fault keeps `st`, and else R34 holds again. -/
theorem takeEvent_st_ne_decoding {e : EventWord} (hinv : Inv s) (hf : s.fault = .none)
    (h : takeEvent s e = .next t) : t.st ≠ .decoding := by
  obtain ⟨hb, hlive⟩ := inv_iff.mp hinv
  rcases takeEvent_cases hb (hlive hf) h with ⟨hexec, hft⟩ | ⟨-, hl⟩
  · rw [(exec_effect hexec).st_eq_of_fault_ne (hf ▸ hft)]
    exact (hlive hf).notDecoding
  · exact hl.notDecoding

/-- An event from outside DECODING that leads outside it moves along the lifecycle's order: the operation does and settle
keeps `st`, or ACC_END's DECODING is settled to PRESENTING. -/
theorem takeEvent_lifecycleMove {e : EventWord} (hs : s.st ≠ .decoding) (ht : t.st ≠ .decoding)
    (h : takeEvent s e = .next t) : lifecycleMove s.st t.st = true := by
  obtain ⟨u, hu, hsettle⟩ := takeEvent_eq_next.mp h
  have heff : Effect (s.selects e) s u := exec_effect hu
  rcases settle_st_cases hsettle with hst | ⟨hud, htp⟩
  · rw [hst]
    exact heff.lifecycleMove hs (hst ▸ ht)
  · obtain ⟨-, hacc, -⟩ := heff.completed_of_decoding hs hud
    rw [hacc, htp]
    rfl

end

/-- Settles O55: under the invariant no DECODING is seen before or after an event, so the event moves in order. -/
theorem lifecycleMovesInOrder : Obligations.LifecycleMovesInOrder := by
  intro s t e rest hinv hf hin hstep
  rw [step_of_event hinv.legal hin] at hstep
  have hdec : t.st ≠ .decoding := takeEvent_st_ne_decoding (hinv.withOwnFields rest s.outs s.fnOut) hf hstep
  exact ⟨takeEvent_lifecycleMove (s := { s with inputs := rest }) (hinv.live hf).notDecoding hdec hstep, hdec⟩

end Sys2Proof.Machine

/-! ## Proofs: shutdown, faults and the order of events (60_exceptions.md) -/

namespace Sys2Proof.Machine

/-! ### A block that ignores events (R226, R229) -/

section
variable {i : Instr} {s t : State} {ins : List Input}

/-- Every row an event word can select asks first whether the block ignores events. -/
theorem exec_of_ignores (hi : isEventOperation i = true) (h : s.ignoresEvents = true) : exec i s = .next s := by
  cases i with
  | issue | decode | loopTop | field | unpack | lum | rgb => cases hi
  | _ => exact unlessIgnored_of_ignores h _

/-- Inputs without a reset are only taken away. -/
theorem delivers_of_ignores (hl : s.cfg.legal = true) (h : s.ignoresEvents = true) (hins : ∀ x ∈ ins, x ≠ .reset) :
    Delivers s ins s := by
  induction ins with
  | nil => exact .nil s
  | cons x ins ih =>
    obtain ⟨hx, hrest⟩ := List.forall_mem_cons.mp hins
    cases x with
    | reset => exact absurd rfl hx
    | event e => exact .cons hl (fun _ => takeEvent_of_ignores h) (ih hrest)

/-- A run over the inputs delivered first. -/
theorem Delivers.run_eq {rest : List Input} (h : Delivers s ins t) (hin : s.inputs = ins ++ rest) :
    Host.Core.run core ins.length s = .next { t with inputs := rest } := by
  have hrun := h rest
  rwa [← hin] at hrun

end

/-- Settles O33: the first check of every event row answers the state as it is. -/
theorem ignoredEventsChangeNothing : Obligations.IgnoredEventsChangeNothing :=
  fun _ _ hi hs => exec_of_ignores hi (State.ignoresEvents_iff.mpr hs.symm)

/-- Settles O34, by induction over the inputs taken: an ignored event leaves the block ignoring the next. -/
theorem onlyResetLeavesShutdownOrAFault : Obligations.OnlyResetLeavesShutdownOrAFault := by
  intro n s hl hs hreset hn
  have htaken : Delivers s (s.inputs.take n) s :=
    delivers_of_ignores hl (State.ignoresEvents_iff.mpr hs.symm) fun x hx => hreset x (List.mem_of_mem_take hx)
  have hrun := htaken.run_eq (List.take_append_drop n s.inputs).symm
  rwa [List.length_take_of_le hn] at hrun

/-! ### Events that latch a stop or shut the block down -/

section
variable {s : State} {e : EventWord} {x : ExitCode}

/-- A block with a request outstanding takes events (10_state.md R34 item 2). -/
theorem LiveInv.live_of_requested (h : LiveInv s) (hf : s.fault = .none) (hr : s.reqN ≠ 0) :
    s.ignoresEvents = false :=
  State.ignoresEvents_eq_false.mpr ⟨hf, fun hst => hr (h.reqN_eq_zero (by simp [hst]) (by simp [hst]))⟩

/-- After SHUTDOWN every event is ignored. -/
theorem State.ignoresEvents_enterShutdown (s : State) (x : ExitCode) : (s.enterShutdown x).ignoresEvents = true :=
  State.ignoresEvents_iff.mpr (.inr rfl)

/-- An entry to SHUTDOWN is the whole of its event: settle runs nothing there. -/
theorem takeEvent_of_exec_enterShutdown (h : exec (s.selects e) s = .next (s.enterShutdown x)) :
    takeEvent s e = .next (s.enterShutdown x) :=
  takeEvent_eq_next.mpr ⟨_, h, settle_of_ignores (s.ignoresEvents_enterShutdown x)⟩

/-- A latched stop moves nothing else, so the items of R34 hold on and nothing is enabled. -/
theorem takeEvent_stop_of_loopTop (hinv : LiveInv s) (h : s.ignoresEvents = false)
    (hc : s.cfg.stopSampling = .loopTop) : takeEvent s 0x400#12 = .next { s with stopPend := true } := by
  have hlatched : LiveInv { s with stopPend := true } := { hinv with }
  rcases exec_selects_stop_cases h with ⟨-, hexec⟩ | ⟨hc', -⟩
  · exact takeEvent_eq_next.mpr ⟨_, hexec, hlatched.settle_eq⟩
  · cases hc.symm.trans hc'

/-- A stop that is not latched is acted on at once (44_control.md R194). -/
theorem takeEvent_stop_of_anyStep (h : s.ignoresEvents = false) (hc : s.cfg.stopSampling = .anyStep) :
    takeEvent s 0x400#12 = .next (s.enterShutdown .stopped) := by
  rcases exec_selects_stop_cases h with ⟨hc', -⟩ | ⟨-, hexec⟩
  · cases hc.symm.trans hc'
  · exact takeEvent_of_exec_enterShutdown hexec

/-- The closure of a source that was asked (40_source_port.md R104). -/
theorem takeEvent_closed_of_requested (h : s.ignoresEvents = false) (hr : s.reqN ≠ 0) :
    takeEvent s 0x200#12 = .next (s.enterShutdown .sourceClosed) := by
  have hexec := exec_selects_closed h
  rw [State.afterEnd, if_neg hr] at hexec
  exact takeEvent_of_exec_enterShutdown hexec

/-- The loop top that an acknowledgement reaches acts on a latched stop (44_control.md R195, R196). -/
theorem takeEvent_ack_of_pending (h : s.ignoresEvents = false) (hst : s.st = .presenting) (hp : s.stopPend = true) :
    takeEvent s 0x600#12 = .next (s.enterShutdown .stopped) := by
  have hexec := exec_selects_ack h
  rw [if_pos hst, State.loopTop_of_pending hp] at hexec
  exact takeEvent_of_exec_enterShutdown hexec

end

/-! ### Two events, one after the other (R232) -/

section
variable {s : State} {e : EventWord} {x : ExitCode}

/-- The first cause wins: an event after one that shuts the block down is ignored (R233). -/
theorem delivers_shutdown_then (e' : EventWord) (hl : s.cfg.legal = true)
    (he : ∀ rest, takeEvent { s with inputs := rest } e =
      .next (({ s with inputs := rest } : State).enterShutdown x)) :
    Delivers s [.event e, .event e'] (s.enterShutdown x) :=
  .cons hl he (delivers_of_ignores hl (s.ignoresEvents_enterShutdown x) (by simp))

/-- A latched stop does not shut the block down: the event after it does. -/
theorem delivers_latched_then (hl : s.cfg.legal = true) (hinv : LiveInv s) (h : s.ignoresEvents = false)
    (hc : s.cfg.stopSampling = .loopTop)
    (he : ∀ rest, takeEvent { s with stopPend := true, inputs := rest } e =
      .next (({ s with stopPend := true, inputs := rest } : State).enterShutdown x)) :
    Delivers s [.event 0x400#12, .event e] (({ s with stopPend := true } : State).enterShutdown x) := by
  have hsecond : Delivers { s with stopPend := true } [.event e]
      (({ s with stopPend := true } : State).enterShutdown x) := .cons hl he (.nil _)
  exact .cons hl (fun rest => takeEvent_stop_of_loopTop (s := { s with inputs := rest }) { hinv with } h hc) hsecond

end

/-- Settles O57: a latched stop leaves the second event to shut the block down, and a second event after SHUTDOWN is
ignored. -/
theorem stopAndClosureInEitherOrder : Obligations.StopAndClosureInEitherOrder := by
  refine ⟨fun s rest hinv hf hr hc hin => ?_, fun s rest hinv hf hr hin => ?_, fun s rest hinv hf hr hc hin => ?_,
    fun s rest hinv hf hst hc hin => ?_⟩
  · have hlive := (hinv.live hf).live_of_requested hf hr
    exact (delivers_latched_then hinv.legal (hinv.live hf) hlive hc fun rest =>
      takeEvent_closed_of_requested (s := { s with stopPend := true, inputs := rest }) hlive hr).run_eq hin
  · have hlive := (hinv.live hf).live_of_requested hf hr
    exact (delivers_shutdown_then _ hinv.legal fun rest =>
      takeEvent_closed_of_requested (s := { s with inputs := rest }) hlive hr).run_eq hin
  · have hlive := (hinv.live hf).live_of_requested hf hr
    exact (delivers_shutdown_then _ hinv.legal fun rest =>
      takeEvent_stop_of_anyStep (s := { s with inputs := rest }) hlive hc).run_eq hin
  · have hlive := State.live_of_presenting hf hst
    exact (delivers_latched_then hinv.legal (hinv.live hf) hlive hc fun rest =>
      takeEvent_ack_of_pending (s := { s with stopPend := true, inputs := rest }) hlive hst rfl).run_eq hin

end Sys2Proof.Machine

/-! ## Proofs: reset (70_reset_and_hazards.md) -/

namespace Sys2Proof.Machine

section
variable {s : State}

/-- The block is not released exactly while it takes events (10_state.md R30). -/
theorem State.srcRelease_eq_false : s.srcRelease = false ↔ s.st ≠ .shutdown ∧ s.fault = .none := by
  simp [State.srcRelease]

/-- A reset is the whole of its step, in any state (70_reset_and_hazards.md R260). -/
theorem step_of_reset {rest : List Input} (hl : s.cfg.legal = true) (hin : s.inputs = .reset :: rest) :
    step s = .next ({ s with inputs := rest } : State).applyReset :=
  step_eq_next.mpr ⟨hl, .inr (.inl ⟨rest, hin, rfl⟩)⟩

end

/-- Settles O3: the level outputs follow from IDLE and no fault, the status word is the one O49 gives at reset, and a
reset input applies reset with the model's own fields kept. -/
theorem resetGivesEveryFieldItsResetValue : Obligations.ResetGivesEveryFieldItsResetValue := by
  refine ⟨fun cfg => ?_, fun s rest hl hin => step_of_reset hl hin⟩
  have hvalid : (State.resetWith cfg).frameValid = false := State.frameValid_eq_false.mpr (by simp)
  have hrelease : (State.resetWith cfg).srcRelease = false := State.srcRelease_eq_false.mpr (by simp)
  obtain ⟨-, -, hwords⟩ := statusWordShowsTheRegisters
  obtain ⟨hstatus, -⟩ := hwords cfg
  exact ⟨rfl, rfl, rfl, rfl, rfl, rfl, rfl, fun _ => rfl, fun _ => rfl, hvalid, hrelease, hrelease, hstatus⟩

end Sys2Proof.Machine
